-- ==== Sys2Proof/Word.lean ====
section
/-! DEFINITION. The two bit-vector widths the spec works with (00_scope.md R9). -/

namespace Sys2Proof

/-- `u32`: a register, table entry, accumulator or command word. -/
abbrev Word := BitVec 32

/-- `u8`: one input byte, a table index (00_scope.md R8, R9). -/
abbrev Byte := BitVec 8

end Sys2Proof
end

