-- ==== Sys2Proof/Syntax.lean ====
section
/-! DEFINITION. The command set: one constructor per row of spec/opcode_table.json (30_encoding.md R70 to R76). -/

namespace Sys2Proof

/-- A command word as the opcode table classifies it. The two reserved rows keep the fields of the word
(RSVH, OP, RSVM, IMM8 of 30_encoding.md R70), so that no bit of it is lost. -/
inductive Instr where
  /-- NOP, `OP = 0x0` (42_control.md R132). -/
  | nop
  /-- BUILD, `OP = 0x1` (40_table_builder.md R100). -/
  | build
  /-- INIT, `OP = 0x2` (41_hasher.md R113). -/
  | init
  /-- FOLD8 with its byte operand IMM8, `OP = 0x3` (41_hasher.md R114, 30_encoding.md R72). -/
  | fold8 (b : Byte)
  /-- FOLDW, `OP = 0x4`; its operand is register DATA at acceptance (41_hasher.md R115, 30_encoding.md R73). -/
  | foldw
  /-- FINAL, `OP = 0x5` (41_hasher.md R116). -/
  | final
  /-- RESERVED_OP_6_7: `OP` is `0x6` or `0x7`, every other bit free (42_control.md R133). -/
  | reservedOp67 (rsvh : BitVec 16) (op : BitVec 4) (rsvm : BitVec 4) (imm8 : Byte)
  /-- RESERVED_OP_8_F: `OP` is `0x8` to `0xF`, every other bit free (42_control.md R133). -/
  | reservedOp8F (rsvh : BitVec 16) (op : BitVec 4) (rsvm : BitVec 4) (imm8 : Byte)
  deriving DecidableEq, Repr

end Sys2Proof
end

