-- ==== Sys2Proof/WellFormed.lean ====
section
/-! DEFINITION. Which terms of `Instr` stand for a command word: the opcode field of a reserved row lies in that
row's range (spec/opcode_table.json, 30_encoding.md R76). Every other operand is bounded by its type. -/

namespace Sys2Proof

/-- The opcodes of the row RESERVED_OP_6_7. -/
def isOp67 (op : BitVec 4) : Bool := op == 6#4 || op == 7#4

/-- The opcodes of the row RESERVED_OP_8_F. -/
def isOp8F (op : BitVec 4) : Bool := decide (8 ≤ op.toNat)

/-- `i` is the reading of some command word. -/
def WellFormed (i : Instr) : Bool :=
  match i with
  | .nop => true
  | .build => true
  | .init => true
  | .fold8 _ => true
  | .foldw => true
  | .final => true
  | .reservedOp67 _ op _ _ => isOp67 op
  | .reservedOp8F _ op _ _ => isOp8F op

end Sys2Proof
end

