-- ==== Sys2Proof/Decode.lean ====
section
/-! DEFINITION. Decoding and encoding of command words, and the opcode table as data (30_encoding.md R70 to R76).
A command word arrives whole, as the value of one 32-bit CMD write (20_memory.md R55), so there is no byte order
and no length to decode: the decoder reads one `Word`. -/

namespace Sys2Proof

/-! ### The fields of format C (30_encoding.md R70) -/

/-- RSVH = `w[31:16]`. -/
def rsvhOf (w : Word) : BitVec 16 := w.extractLsb' 16 16

/-- OP = `w[15:12]`. -/
def opOf (w : Word) : BitVec 4 := w.extractLsb' 12 4

/-- RSVM = `w[11:8]`. -/
def rsvmOf (w : Word) : BitVec 4 := w.extractLsb' 8 4

/-- IMM8 = `w[7:0]`. -/
def imm8Of (w : Word) : Byte := w.extractLsb' 0 8

/-- The word of format C with these fields. -/
def formatC (rsvh : BitVec 16) (op : BitVec 4) (rsvm : BitVec 4) (imm8 : Byte) : Word :=
  rsvh ++ op ++ rsvm ++ imm8

/-! ### Decoding -/

/-- Why a word fits no row of the opcode table (30_encoding.md R75, R76). The machine answers each with ERR_BADCMD
(42_control.md R130), never with a stop. -/
inductive DecodeError where
  /-- A valid opcode with a nonzero RSVH. -/
  | nonzeroRsvh
  /-- A valid opcode with a nonzero RSVM. -/
  | nonzeroRsvm
  /-- A valid opcode other than FOLD8 with a nonzero IMM8. -/
  | nonzeroImm8
  deriving DecidableEq, Repr

/-- A command without operand: IMM8 must be 0 (30_encoding.md R72, R75). -/
def decodeBare (i : Instr) (imm8 : Byte) : Except DecodeError Instr :=
  if imm8 = 0#8 then .ok i else .error .nonzeroImm8

/-- The command of a valid opcode `0x0` to `0x5` whose reserved fields are 0 (30_encoding.md R74). -/
def decodeCommand (op : BitVec 4) (imm8 : Byte) : Except DecodeError Instr :=
  if op = 3#4 then .ok (.fold8 imm8)
  else if op = 0#4 then decodeBare .nop imm8
  else if op = 1#4 then decodeBare .build imm8
  else if op = 2#4 then decodeBare .init imm8
  else if op = 4#4 then decodeBare .foldw imm8
  else decodeBare .final imm8

/-- The decoder, total on the 2^32 words (30_encoding.md R75, R76). The reserved opcodes come first: their row takes
every word with that OP "whatever its other bits" (42_control.md R133). -/
def decode (w : Word) : Except DecodeError Instr :=
  if isOp8F (opOf w) then .ok (.reservedOp8F (rsvhOf w) (opOf w) (rsvmOf w) (imm8Of w))
  else if isOp67 (opOf w) then .ok (.reservedOp67 (rsvhOf w) (opOf w) (rsvmOf w) (imm8Of w))
  else if rsvhOf w ≠ 0#16 then .error .nonzeroRsvh
  else if rsvmOf w ≠ 0#4 then .error .nonzeroRsvm
  else decodeCommand (opOf w) (imm8Of w)

/-! ### Encoding -/

/-- The command word of an instruction (30_encoding.md R74). -/
def encode (i : Instr) : Word :=
  match i with
  | .nop => 0x00000000#32
  | .build => 0x00001000#32
  | .init => 0x00002000#32
  | .fold8 b => formatC 0#16 3#4 0#4 b
  | .foldw => 0x00004000#32
  | .final => 0x00005000#32
  | .reservedOp67 rsvh op rsvm imm8 => formatC rsvh op rsvm imm8
  | .reservedOp8F rsvh op rsvm imm8 => formatC rsvh op rsvm imm8

/-! ### The opcode table as data -/

/-- A row of spec/opcode_table.json: the words `w` with `w AND mask = pattern`. -/
structure Row where
  mnemonic : String
  pattern  : Word
  mask     : Word
  deriving DecidableEq, Repr

/-- `w` fits the row (30_encoding.md R74, R75). -/
def Row.fits (r : Row) (w : Word) : Bool := w &&& r.mask == r.pattern

/-- The row of an instruction, match and mask as in 30_encoding.md R74 and spec/opcode_table.json. -/
def Instr.row (i : Instr) : Row :=
  match i with
  | .nop => ⟨"NOP", 0x00000000#32, 0xFFFFFFFF#32⟩
  | .build => ⟨"BUILD", 0x00001000#32, 0xFFFFFFFF#32⟩
  | .init => ⟨"INIT", 0x00002000#32, 0xFFFFFFFF#32⟩
  | .fold8 _ => ⟨"FOLD8", 0x00003000#32, 0xFFFFFF00#32⟩
  | .foldw => ⟨"FOLDW", 0x00004000#32, 0xFFFFFFFF#32⟩
  | .final => ⟨"FINAL", 0x00005000#32, 0xFFFFFFFF#32⟩
  | .reservedOp67 _ _ _ _ => ⟨"RESERVED_OP_6_7", 0x00006000#32, 0x0000E000#32⟩
  | .reservedOp8F _ _ _ _ => ⟨"RESERVED_OP_8_F", 0x00008000#32, 0x00008000#32⟩

/-- The whole table, in the order of spec/opcode_table.json. -/
def opcodeTable : List Row :=
  [Instr.nop.row, Instr.build.row, Instr.init.row, (Instr.fold8 0).row, Instr.foldw.row, Instr.final.row,
   (Instr.reservedOp67 0 6 0 0).row, (Instr.reservedOp8F 0 8 0 0).row]

/-! ### The host's reading of a table word -/

/-- The command word whose low `nbits` bits are `w` and whose other bits are 0. -/
def tableWord (nbits w : Nat) : Word := BitVec.ofNat 32 (w % 2 ^ nbits)

/-- The instruction the decoder reads from an instruction of `nbits` bits `w`. Every command is one 32-bit word
(30_encoding.md R70, R71), so there is none longer than 32 bits. -/
def decodeTableWord (nbits w : Nat) : Option Instr :=
  if nbits ≤ 32 then (decode (tableWord nbits w)).toOption else none

end Sys2Proof
end

