-- ==== Sys2Proof/Config.lean ====
section
/-! DEFINITION. The free values: what the spec leaves unspecified and gives no law for
(93_implementation_defined.md I2, I3). Each is a constant without a body, applied to the number of the draw
(`State.draws`), so no proof can know a value of it. The constants the spec DOES fix stand in
Machine/Operands.lean; the open parameter `BASE` is a field of State (log entry 4). -/

namespace Sys2Proof.Config

/-- Draw `n`: the contents of TABLE after a reset turn, every entry free (10_state.md R36; 93 I2 "a draw per entry, under
no law"). Log entry 6. -/
opaque freeContents : Nat → Vector Word 256

/-- Draw `n`: BIDX after a reset turn or a completed BUILD, within its range 0 to 256 (10_state.md R38; 93 I3).
Log entries 6 and 7. -/
opaque freeBidx : Nat → Fin 257

/-- Draw `n`: BCNT after a reset turn or a completed BUILD, within its range 0 to 8 (10_state.md R38; 93 I3).
Log entries 6 and 7. -/
opaque freeBcnt : Nat → Fin 9

/-- Draw `n`: BACC after a reset turn or a completed BUILD (10_state.md R38; 93 I3). Log entries 6 and 7. -/
opaque freeBacc : Nat → Word

end Sys2Proof.Config
end

