-- ==== Sys2Proof/Machine/State.lean ====
section
/-! DEFINITION. The state of the block, as plain data (10_state.md R20: "The block's complete state is the list below.
Nothing else is state."), with the bus turns still to come; the reasons a step can stop; the state after reset. -/

namespace Sys2Proof.Machine

/-- What PENDING holds when it is not empty: an accepted command with its operand (10_state.md R37). -/
inductive Command where
  | build
  | init
  | fold8 (b : Byte)
  | foldw (w : Word)
  | final
  deriving DecidableEq, Repr

/-- One access of the host's bus (20_memory.md R52 to R54): a bus address, a width in BYTES, and for a write the value.
An access of a width other than 4 is never performed, so the value is held as the 32 bits a defined access moves
(log entry 11). -/
inductive Access where
  | read (addr : Nat) (width : Nat)
  | write (addr : Nat) (width : Nat) (value : Word)
  deriving DecidableEq, Repr

/-- One atomic step of one of the three agents (00_scope.md R5, 20_memory.md R60). -/
inductive Turn where
  /-- The host performs one access. -/
  | host (a : Access)
  /-- The core takes its step, if it has one (42_control.md R131). -/
  | core
  /-- The reset source asserts reset (70_reset_and_hazards.md R170). -/
  | reset
  deriving DecidableEq, Repr

/-- Everything the block holds, and the model's own fields. -/
structure State where
  /-- The platform's parameter BASE (20_memory.md R51). No step changes it. Log entry 4. -/
  base : Nat
  /-- STATUS.TABLE_VALID (10_state.md R24). -/
  tableValid : Bool
  /-- STATUS.ACTIVE (10_state.md R25). -/
  active : Bool
  /-- STATUS.RESULT_VALID (10_state.md R26). -/
  resultValid : Bool
  /-- STATUS.ERR_BUSY (10_state.md R27). -/
  errBusy : Bool
  /-- STATUS.ERR_BADCMD (10_state.md R27). -/
  errBadcmd : Bool
  /-- STATUS.ERR_NOTABLE (10_state.md R27). -/
  errNotable : Bool
  /-- STATUS.ERR_SEQ (10_state.md R27). -/
  errSeq : Bool
  /-- DATA (10_state.md R29). -/
  data : Word
  /-- RESULT (10_state.md R30). -/
  result : Word
  /-- TIDX.IDX, the 8 bits of TIDX that are held (10_state.md R31). -/
  tidx : Byte
  /-- ACC, the hidden hash accumulator (10_state.md R35). -/
  acc : Word
  /-- TABLE, 256 entries (10_state.md R36). -/
  table : Vector Word 256
  /-- PENDING, the command latch; `none` is empty (10_state.md R37). STATUS.BUSY is computed from it (R23). -/
  pending : Option Command
  /-- BIDX, the builder's loop index, 0 to 256 (10_state.md R38). -/
  bidx : BitVec 9
  /-- BCNT, the builder's reflection counter, 0 to 8 (10_state.md R38). -/
  bcnt : BitVec 4
  /-- BACC, the builder's accumulator (10_state.md R38). -/
  bacc : Word
  /-- The model's own: the turns still to come, next first. It says how the agents interleave (20_memory.md R60).
  Log entry 1. -/
  schedule : List Turn
  /-- The model's own: the values the block returned to host reads, newest first (70_reset_and_hazards.md R182).
  Log entry 10. -/
  readLog : List Word
  /-- The model's own: how many times free values have been drawn. Log entry 14. -/
  draws : Nat
  deriving DecidableEq, Repr

/-- Why the machine stops with a fault. -/
inductive Fault where
  /-- `fault BUS_UNSUPPORTED` (20_memory.md R54, 60_exceptions.md R154): raised by a host access inside the window that
  is not 32 bits wide or is misaligned. Safe: the spec itself makes it a fault state that has no value and changes no
  state. -/
  | busUnsupported
  deriving DecidableEq, Repr

/-- Why the machine refuses. -/
inductive Refusal where
  /-- Answered only by an arm of `exec` whose instruction has no meaning yet. Safe: it proves nothing. No arm answers
  it in this model. -/
  | notModelled (mnemonic : String)
  deriving DecidableEq, Repr

/-- The machine right after reset (10_state.md R20, 70_reset_and_hazards.md R170). The spec leaves TABLE, BIDX, BCNT and
BACC unspecified: their zeros are a DESIGN CHOICE (log entry 5), as are `base` (4), `schedule` (1), `readLog` (10) and
`draws` (14). -/
def State.reset : State where
  base := 0
  tableValid := false
  active := false
  resultValid := false
  errBusy := false
  errBadcmd := false
  errNotable := false
  errSeq := false
  data := 0#32
  result := 0#32
  tidx := 0#8
  acc := 0#32
  table := Vector.replicate 256 0#32
  pending := none
  bidx := 0#9
  bcnt := 0#4
  bacc := 0#32
  schedule := []
  readLog := []
  draws := 0

end Sys2Proof.Machine
end

