-- ==== Sys2Proof/Machine/Operands.lean ====
section
/-! DEFINITION. The constants of the variant (00_scope.md R8), the register offsets (10_state.md R20), and the operand
forms: the byte of FOLD8, the latched word of FOLDW and the order of its bytes. -/

namespace Sys2Proof.Machine

/-! ### Constants (00_scope.md R8) -/

/-- `POLY`: the reflected CRC-32 polynomial (00_scope.md R1, R8). -/
def polynomial : Word := 0xEDB88320#32

/-- `CRC_INIT` (00_scope.md R8). -/
def crcInit : Word := 0xFFFFFFFF#32

/-! ### The register map (10_state.md R20) -/

/-- The window is 64 bytes (00_scope.md R8, 20_memory.md R50). -/
def windowSize : Nat := 0x40

def offCmd : Nat := 0x00
def offStatus : Nat := 0x04
def offData : Nat := 0x08
def offResult : Nat := 0x0C
def offTidx : Nat := 0x10
def offTdata : Nat := 0x14
def offPoly : Nat := 0x18

/-! ### Bytes of a word -/

/-- Byte `k` of a word, `w[8k+7:8k]`: byte 0, the least significant, is first in sequence order (20_memory.md R56), and
is what bus lane `k` carries (R57). -/
def byteOf (w : Word) (k : Nat) : Byte := w.extractLsb' (8 * k) 8

/-- The four bytes of a word in sequence order (20_memory.md R56). -/
def wordBytes (w : Word) : List Byte := [byteOf w 0, byteOf w 1, byteOf w 2, byteOf w 3]

/-- The word whose bytes in sequence order are these, as a little-endian host loads it (20_memory.md R56). -/
def wordOfBytes (b0 b1 b2 b3 : Byte) : Word := b3 ++ b2 ++ b1 ++ b0

/-- `zext_32` of a byte (00_scope.md R9). -/
def zextByte (b : Byte) : Word := b.setWidth 32

/-! ### Operands of commands -/

/-- FOLD8's operand is the byte in the command word, taken unchanged (30_encoding.md R72). -/
def fold8Operand (b : Byte) : Command := .fold8 b

/-- FOLDW's operand is the value of DATA when the word is accepted (30_encoding.md R73). -/
def foldwOperand (s : State) : Command := .foldw s.data

end Sys2Proof.Machine
end

