-- ==== Sys2Proof/Machine/Flags.lean ====
section
/-! DEFINITION. STATUS: the computed fields, the word the host reads, raising an interface error and clearing the
error bits (10_state.md R22 to R28, 42_control.md R134, 60_exceptions.md R151). -/

namespace Sys2Proof.Machine

/-- STATUS.BUSY: "its value is always `PENDING != empty`" (10_state.md R23). -/
def busy (s : State) : Bool := s.pending.isSome

/-- The four interface errors (60_exceptions.md R151). -/
inductive InterfaceError where
  | errBusy
  | errBadcmd
  | errNotable
  | errSeq
  deriving DecidableEq, Repr

/-- An error's code is the index of its STATUS bit (60_exceptions.md R151). -/
def errorCode (e : InterfaceError) : Nat :=
  match e with
  | .errBusy => 8
  | .errBadcmd => 9
  | .errNotable => 10
  | .errSeq => 11

/-- The word a read of STATUS returns (10_state.md R22): bits [31:12] and [7:4] are 0 (R28). -/
def statusWord (s : State) : Word :=
  0#20 ++ (BitVec.ofBool s.errSeq ++ BitVec.ofBool s.errNotable ++ BitVec.ofBool s.errBadcmd ++ BitVec.ofBool s.errBusy) ++
    0#4 ++ (BitVec.ofBool s.resultValid ++ BitVec.ofBool s.active ++ BitVec.ofBool s.tableValid ++ BitVec.ofBool (busy s))

/-- `raise ERR_X`: set the error's sticky bit and change nothing else (00_scope.md R11, 60_exceptions.md R151, R152).
This hardware's whole exception mechanism: there is no trap to enter or to return from (R150, R157, R158). -/
def raise (e : InterfaceError) (s : State) : State :=
  { s with
    errBusy := s.errBusy || decide (e = .errBusy)
    errBadcmd := s.errBadcmd || decide (e = .errBadcmd)
    errNotable := s.errNotable || decide (e = .errNotable)
    errSeq := s.errSeq || decide (e = .errSeq) }

/-- A write of `v` to STATUS clears the error bits it has a 1 for, and nothing else (42_control.md R134). -/
def clearErrors (v : Word) (s : State) : State :=
  { s with
    errBusy := s.errBusy && !v.getLsbD 8
    errBadcmd := s.errBadcmd && !v.getLsbD 9
    errNotable := s.errNotable && !v.getLsbD 10
    errSeq := s.errSeq && !v.getLsbD 11 }

end Sys2Proof.Machine
end

