-- ==== Sys2Proof/Machine/Ops.lean ====
section
/-! DEFINITION. The shared operations: the command latch and the acceptance check every command goes through
(42_control.md R130), the TABLE storage, the register window's reads and its writes other than CMD, reset. -/

namespace Sys2Proof.Machine

/-! ### Acceptance (42_control.md R130) -/

/-- `PENDING <- c`. -/
def latch (c : Command) (s : State) : State := { s with pending := some c }

/-- The checks of R130 for a word that is a valid command, in the order written there (60_exceptions.md R153): BUSY,
then the table if the command needs it, then the session if it needs one. ERR_BADCMD comes from the decoder and from
`rejectWord`. A command that passes has its acceptance effect. -/
def submit (needsTable needsSession : Bool) (effect : State → State) (s : State) :
    Host.Outcome State Fault Refusal :=
  if busy s then .next (raise .errBusy s)
  else if needsTable && !s.tableValid then .next (raise .errNotable s)
  else if needsSession && !s.active then .next (raise .errSeq s)
  else .next (effect s)

/-- The answer to a word that fails `valid` (30_encoding.md R75): ERR_BUSY while busy, else ERR_BADCMD
(42_control.md R130, R133). -/
def rejectWord (s : State) : Host.Outcome State Fault Refusal :=
  if busy s then .next (raise .errBusy s) else .next (raise .errBadcmd s)

/-! ### TABLE (10_state.md R36) -/

/-- `TABLE[i]`. The index is a byte, so it is always in range (41_hasher.md R110, 60_exceptions.md R155). -/
def tableRead (i : Byte) (s : State) : Word := s.table[i.toFin]

/-- `TABLE[i] <- v`. Only the builder writes TABLE (10_state.md R36). -/
def tableWrite (i : Byte) (v : Word) (s : State) : State :=
  { s with table := s.table.set i.toNat v i.isLt }

/-! ### The register window (10_state.md R20 to R34) -/

/-- The value of a read of TDATA (10_state.md R32). -/
def tdata (s : State) : Word := if s.tableValid then tableRead s.tidx s else 0#32

/-- The value of the register at a word offset: CMD, and every offset from `0x1C` on, reads 0
(10_state.md R21, R34). -/
def readReg (off : Nat) (s : State) : Word :=
  if off = offStatus then statusWord s
  else if off = offData then s.data
  else if off = offResult then s.result
  else if off = offTidx then zextByte s.tidx
  else if off = offTdata then tdata s
  else if off = offPoly then polynomial
  else 0#32

/-- `DATA <- v` (42_control.md R135). -/
def writeData (v : Word) (s : State) : State := { s with data := v }

/-- `TIDX <- zext_32(v[7:0])` (42_control.md R136). -/
def writeTidx (v : Word) (s : State) : State := { s with tidx := byteOf v 0 }

/-- A write to a register other than CMD: STATUS, DATA and TIDX take it, every other offset ignores it
(42_control.md R134 to R137). -/
def writeReg (off : Nat) (v : Word) (s : State) : State :=
  if off = offStatus then clearErrors v s
  else if off = offData then writeData v s
  else if off = offTidx then writeTidx v s
  else s

/-- A read returned `v` to the host. -/
def logRead (v : Word) (s : State) : State := { s with readLog := v :: s.readLog }

/-! ### Reset and free values -/

/-- The builder's working registers take unspecified values within their ranges (10_state.md R38; 93 I3). -/
def freeBuilder (s : State) : State :=
  { s with
    bidx := BitVec.ofNat 9 (Config.freeBidx s.draws).val
    bcnt := BitVec.ofNat 4 (Config.freeBcnt s.draws).val
    bacc := Config.freeBacc s.draws
    draws := s.draws + 1 }

/-- TABLE takes unspecified contents (10_state.md R36; 93 I2). -/
def freeTable (s : State) : State :=
  { s with
    table := Config.freeContents s.draws
    draws := s.draws + 1 }

/-- Asserting reset (70_reset_and_hazards.md R170): every state item takes its reset value, PENDING is emptied so the
pending command never completes (R171), and what the spec leaves unspecified takes free values. The platform's BASE and
the turns still to come are not the block's, and stay. -/
def resetBlock (s : State) : State :=
  freeTable (freeBuilder
    { s with
      tableValid := false
      active := false
      resultValid := false
      errBusy := false
      errBadcmd := false
      errNotable := false
      errSeq := false
      data := 0#32
      result := 0#32
      tidx := 0#8
      acc := 0#32
      pending := none })

end Sys2Proof.Machine
end

