-- ==== Sys2Proof/Machine/Builder.lean ====
section
/-! DEFINITION. The table builder: the table function, BUILD's acceptance and completion, and the builder's micro-sequence
over its working registers (40_table_builder.md R100 to R103). -/

namespace Sys2Proof.Machine

/-! ### The table function -/

/-- The reflection step (40_table_builder.md R101). -/
def reflStep (a : Word) : Word := if a.getLsbD 0 then polynomial ^^^ (a >>> 1) else a >>> 1

/-- `reflStep` applied `n` times. -/
def reflTimes : Nat → Word → Word
  | 0, a => a
  | n + 1, a => reflTimes n (reflStep a)

/-- The table function `T`: eight reflection steps from the zero-extended index (40_table_builder.md R102). -/
def tableFn (i : Byte) : Word := reflTimes 8 (zextByte i)

/-! ### BUILD (40_table_builder.md R100) -/

/-- Acceptance of BUILD: `PENDING <- BUILD`, TABLE_VALID cleared. It needs neither table nor session. -/
def execBuild (s : State) : Host.Outcome State Fault Refusal :=
  submit false false (fun s => { latch .build s with tableValid := false }) s

/-- The complete table, `T(i)` at every index `i` (40_table_builder.md R102). (Irreducible, so that no proof computes 256
entries by unfolding.) -/
@[irreducible] def crcTable : Vector Word 256 := Vector.ofFn (fun i : Fin 256 => tableFn (BitVec.ofFin i))

/-- `for i in 0..256: TABLE[i] <- T(i)` (40_table_builder.md R100). -/
def fillTable (s : State) : State := { s with table := crcTable }

/-- The end of BUILD: TABLE_VALID set and PENDING emptied; BIDX, BCNT and BACC are unspecified from here on
(10_state.md R38; log entry 7). -/
def finishBuild (s : State) : State := freeBuilder { s with tableValid := true, pending := none }

/-- Completion of BUILD, one atomic core step (42_control.md R131): "A model may therefore perform the whole loop as one
atomic core step" (40_table_builder.md R103). The loop itself is `builderRun` below. -/
def completeBuild (s : State) : State := finishBuild (fillTable s)

/-! ### The micro-sequence (40_table_builder.md R103)

The loop over BIDX, BCNT and BACC that `completeBuild` performs as one step; that it computes the same table is a
statement for the provers. -/

/-- `BACC <- refl(BACC); BCNT <- BCNT + 1`. -/
def builderReflect (s : State) : State := { s with bacc := reflStep s.bacc, bcnt := s.bcnt + 1#4 }

/-- `while BCNT < 8`, with a bound on the number of iterations. -/
def builderInner : Nat → State → State
  | 0, s => s
  | n + 1, s => if s.bcnt.toNat < 8 then builderInner n (builderReflect s) else s

/-- The 8-bit index `BIDX[7:0]`. -/
def builderIndex (s : State) : Byte := s.bidx.setWidth 8

/-- `BACC <- zext_32(BIDX[7:0]); BCNT <- 0`. -/
def builderStart (s : State) : State := { s with bacc := zextByte (builderIndex s), bcnt := 0#4 }

/-- `TABLE[BIDX[7:0]] <- BACC; BIDX <- BIDX + 1`. -/
def builderStore (s : State) : State :=
  let s' := tableWrite (builderIndex s) s.bacc s
  { s' with bidx := s.bidx + 1#9 }

/-- The body of the outer loop: one table entry. -/
def builderEntry (s : State) : State := builderStore (builderInner 8 (builderStart s))

/-- `while BIDX < 256`, with a bound on the number of iterations. -/
def builderOuter : Nat → State → State
  | 0, s => s
  | n + 1, s => if s.bidx.toNat < 256 then builderOuter n (builderEntry s) else s

/-- `BIDX <- 0` and the two loops: 256 entries of 8 reflections, 2048 in all. (Irreducible: no proof runs the loops by
unfolding; `unfold builderRun` opens it.) -/
@[irreducible] def builderRun (s : State) : State := builderOuter 256 { s with bidx := 0#9 }

end Sys2Proof.Machine
end

