-- ==== Sys2Proof/Machine/Control.lean ====
section
/-! DEFINITION. NOP and the reserved opcodes (42_control.md R132, R133). -/

namespace Sys2Proof.Machine

/-- NOP: checked like every command, and when accepted it has no effect and no completion (42_control.md R132). -/
def execNop (s : State) : Host.Outcome State Fault Refusal := submit false false id s

/-- Reserved opcodes `0x6` and `0x7`: the word fails `valid`, whatever its other bits (42_control.md R133). -/
def execReservedOp67 (_rsvh : BitVec 16) (_op _rsvm : BitVec 4) (_imm8 : Byte) (s : State) :
    Host.Outcome State Fault Refusal := rejectWord s

/-- Reserved opcodes `0x8` to `0xF`: the word fails `valid`, whatever its other bits (42_control.md R133). -/
def execReservedOp8F (_rsvh : BitVec 16) (_op _rsvm : BitVec 4) (_imm8 : Byte) (s : State) :
    Host.Outcome State Fault Refusal := rejectWord s

end Sys2Proof.Machine
end

