-- ==== Sys2Proof/Machine/Hasher.lean ====
section
/-! DEFINITION. The folding engine: the fold step, the reference hash, and INIT, FOLD8, FOLDW, FINAL at acceptance and
at completion (41_hasher.md R110 to R116). -/

namespace Sys2Proof.Machine

/-! ### The fold step and the reference hash -/

/-- The table index of a fold, `acc[7:0] ^ b` (41_hasher.md R110). -/
def foldIndex (acc : Word) (b : Byte) : Byte := byteOf acc 0 ^^^ b

/-- The per-byte fold step, which reads TABLE (41_hasher.md R110). -/
def foldStep (s : State) (acc : Word) (b : Byte) : Word := (acc >>> 8) ^^^ tableRead (foldIndex acc b) s

/-- The fold step with the table function `T` in place of TABLE (41_hasher.md R110, last sentence; R111). -/
def foldStepT (acc : Word) (b : Byte) : Word := (acc >>> 8) ^^^ tableFn (foldIndex acc b)

/-- `fold` of R111, in sequence order. -/
def foldBytes : Word → List Byte → Word
  | a, [] => a
  | a, b :: rest => foldBytes (foldStepT a b) rest

/-- The reference hash function (41_hasher.md R111). -/
def crcHash (bytes : List Byte) : Word := ~~~ foldBytes crcInit bytes

/-! ### INIT (41_hasher.md R113) -/

def execInit (s : State) : Host.Outcome State Fault Refusal := submit true false (latch .init) s

def completeInit (s : State) : State := { s with acc := crcInit, active := true, pending := none }

/-! ### FOLD8 (41_hasher.md R114) -/

def execFold8 (b : Byte) (s : State) : Host.Outcome State Fault Refusal :=
  submit true true (latch (fold8Operand b)) s

def completeFold8 (b : Byte) (s : State) : State := { s with acc := foldStep s s.acc b, pending := none }

/-! ### FOLDW (41_hasher.md R115) -/

/-- The operand is DATA at acceptance. -/
def execFoldw (s : State) : Host.Outcome State Fault Refusal :=
  submit true true (fun s => latch (foldwOperand s) s) s

/-- The four fold steps of FOLDW, least significant byte first. -/
def foldWord (s : State) (acc w : Word) : Word :=
  foldStep s (foldStep s (foldStep s (foldStep s acc (byteOf w 0)) (byteOf w 1)) (byteOf w 2)) (byteOf w 3)

def completeFoldw (w : Word) (s : State) : State := { s with acc := foldWord s s.acc w, pending := none }

/-! ### FINAL (41_hasher.md R116) -/

def execFinal (s : State) : Host.Outcome State Fault Refusal := submit false true (latch .final) s

/-- RESULT takes the complement of ACC; ACC keeps its value. -/
def completeFinal (s : State) : State :=
  { s with result := ~~~s.acc, resultValid := true, active := false, pending := none }

end Sys2Proof.Machine
end

