-- ==== Sys2Proof/Machine/Dispatch.lean ====
section
/-! DEFINITION. The meaning of each command at acceptance, one arm per constructor (42_control.md R130). -/

namespace Sys2Proof.Machine

def exec (i : Instr) (s : State) : Host.Outcome State Fault Refusal :=
  match i with
  | .nop => Sys2Proof.Machine.execNop s
  | .build => Sys2Proof.Machine.execBuild s
  | .init => Sys2Proof.Machine.execInit s
  | .fold8 b => Sys2Proof.Machine.execFold8 b s
  | .foldw => Sys2Proof.Machine.execFoldw s
  | .final => Sys2Proof.Machine.execFinal s
  | .reservedOp67 rsvh op rsvm imm8 => Sys2Proof.Machine.execReservedOp67 rsvh op rsvm imm8 s
  | .reservedOp8F rsvh op rsvm imm8 => Sys2Proof.Machine.execReservedOp8F rsvh op rsvm imm8 s

end Sys2Proof.Machine
end

