-- ==== Sys2Proof/Machine/Agents.lean ====
section
/-! DEFINITION. What each of the three agents does in its turn: a host access to the window, the core's completion step,
reset (00_scope.md R5, 20_memory.md R52 to R60, 42_control.md R131, 70_reset_and_hazards.md R170). -/

namespace Sys2Proof.Machine

/-! ### The host -/

def Access.addr : Access → Nat
  | .read a _ => a
  | .write a _ _ => a

def Access.width : Access → Nat
  | .read _ n => n
  | .write _ n _ => n

/-- The offset at which a bus address reaches the block, if it does (20_memory.md R52). -/
def windowOffset (base addr : Nat) : Option Nat :=
  if base ≤ addr ∧ addr < base + windowSize then some (addr - base) else none

/-- The only accesses the block defines: 4 bytes wide, at a multiple of 4 (20_memory.md R53, R54). -/
def supported (off width : Nat) : Bool := decide (width = 4) && decide (off % 4 = 0)

/-- A CMD write submits its word (10_state.md R21, 42_control.md R130). -/
def submitWord (w : Word) (s : State) : Host.Outcome State Fault Refusal :=
  match decode w with
  | .ok i => exec i s
  | .error _ => rejectWord s

/-- A supported access at a window offset. -/
def accessReg (off : Nat) (a : Access) (s : State) : Host.Outcome State Fault Refusal :=
  match a with
  | .read _ _ => .next (logRead (readReg off s) s)
  | .write _ _ v => if off = offCmd then submitWord v s else .next (writeReg off v s)

/-- One host access. Outside the window the block takes no step (20_memory.md R52; 93 I7; log entry 8); inside it, an
access that is not defined is BUS_UNSUPPORTED (20_memory.md R54). -/
def hostAccess (a : Access) (s : State) : Host.Outcome State Fault Refusal :=
  match windowOffset s.base a.addr with
  | none => .next s
  | some off => if supported off a.width then accessReg off a s else .fault .busUnsupported

/-! ### The core -/

/-- The completion pseudocode of each pending command (42_control.md R131). -/
def complete (c : Command) (s : State) : State :=
  match c with
  | .build => completeBuild s
  | .init => completeInit s
  | .fold8 b => completeFold8 b s
  | .foldw w => completeFoldw w s
  | .final => completeFinal s

/-- The core's turn: its completion step, or nothing while PENDING is empty ("the core has no step", 42_control.md R131;
log entry 3). -/
def coreStep (s : State) : State :=
  match s.pending with
  | none => s
  | some c => complete c s

/-! ### Turns -/

/-- One atomic step of the agent whose turn it is (20_memory.md R60). -/
def runTurn (t : Turn) (s : State) : Host.Outcome State Fault Refusal :=
  match t with
  | .host a => hostAccess a s
  | .core => .next (coreStep s)
  | .reset => .next (resetBlock s)

/-- The turns still to come become these. -/
def setSchedule (ts : List Turn) (s : State) : State := { s with schedule := ts }

/-- What the step does: the next turn of the schedule, or, when none is left, the core's completion step (weak fairness,
42_control.md R131; log entry 2). -/
def takeTurn (s : State) : Host.Outcome State Fault Refusal :=
  match s.schedule with
  | [] => .next (coreStep s)
  | t :: rest => runTurn t (setSchedule rest s)

/-- The turn that writes a word to CMD. -/
def cmdTurn (base : Nat) (w : Word) : Turn := .host (.write (base + offCmd) 4 w)

end Sys2Proof.Machine
end

