-- ==== Sys2Proof/Machine/Step.lean ====
section
/-! DEFINITION. The step of the whole machine, and the state in which a given command word is submitted next. -/

namespace Sys2Proof.Machine

/-- One atomic step of one agent (20_memory.md R60). -/
def step (s : State) : Host.Outcome State Fault Refusal := takeTurn s

/-- `s` with one more turn before the others: the host writes the word to CMD. The block fetches nothing
(20_memory.md R55, R61): a command runs because the host submits it, so this is where the next instruction comes from
(log entry 12). -/
def State.withFetchWord (s : State) (nbits w : Nat) : State :=
  setSchedule (cmdTurn s.base (tableWord nbits w) :: s.schedule) s

end Sys2Proof.Machine
end

