-- ==== Sys2Proof/Safety.lean ====
section
/-! DEFINITION. The terms claims are stated in: the invariant of reachable states (10_state.md R41), the validity formula
and check order of a CMD write as the spec writes them, what a host can observe, a fault-free schedule, the end of a run
(70_reset_and_hazards.md R182), and the sessions of 41_hasher.md R117. -/

namespace Sys2Proof.Machine

/-! ### Runs -/

/-- `s` with one more turn before the turns still to come: `t` is what happens next. -/
def onTurn (t : Turn) (s : State) : State := setSchedule (t :: s.schedule) s

/-- The host writes `v` to the register at `off`. -/
def writeTurn (base off : Nat) (v : Word) : Turn := .host (.write (base + off) 4 v)

/-- The host reads the register at `off`. -/
def readTurn (base off : Nat) : Turn := .host (.read (base + off) 4)

/-- `s` with these turns before the turns still to come. -/
def onTurns (ts : List Turn) (s : State) : State := setSchedule (ts ++ s.schedule) s

/-- Run exactly these turns from `s`, stopping at the first fault or refusal. -/
def runTurns (ts : List Turn) (s : State) : Host.Outcome State Fault Refusal :=
  Sys2Proof.core.run ts.length (onTurns ts s)

/-- The step from `s` is the core's: its turn comes next, or no turn is left. -/
def coreActs (s : State) : Prop := s.schedule = [] ∨ s.schedule.head? = some .core

/-- The step from `s` is the reset source's. -/
def resetActs (s : State) : Prop := s.schedule.head? = some .reset

/-- The step from `s` is a defined host write of `v` at offset `off`. -/
def hostWrites (off : Nat) (v : Word) (s : State) : Prop := s.schedule.head? = some (writeTurn s.base off v)

/-! ### A CMD write as the spec writes it -/

/-- `valid(w)` of 30_encoding.md R75, transcribed. -/
def validWord (w : Word) : Bool :=
  w.extractLsb' 16 16 == 0#16 && w.extractLsb' 8 4 == 0#4 && decide ((w.extractLsb' 12 4).toNat ≤ 5) &&
    (w.extractLsb' 12 4 == 3#4 || w.extractLsb' 0 8 == 0#8)

/-- One of the six commands, not a reserved row of the opcode table. -/
def isCommand (i : Instr) : Bool :=
  match i with
  | .nop => true
  | .build => true
  | .init => true
  | .fold8 _ => true
  | .foldw => true
  | .final => true
  | .reservedOp67 _ _ _ _ => false
  | .reservedOp8F _ _ _ _ => false

/-- The error a CMD write of `w` raises, if it is rejected: the checks of 42_control.md R130 in the order written
(60_exceptions.md R153). -/
def cmdError (w : Word) (s : State) : Option InterfaceError :=
  let op := (w.extractLsb' 12 4).toNat
  if s.pending ≠ none then some .errBusy
  else if validWord w = false then some .errBadcmd
  else if (op = 2 ∨ op = 3 ∨ op = 4) ∧ s.tableValid = false then some .errNotable
  else if (op = 3 ∨ op = 4 ∨ op = 5) ∧ s.active = false then some .errSeq
  else none

/-- The last part of R130, `case op`: what an accepted word does. -/
def acceptEffect (w : Word) (s : State) : State :=
  let op := (w.extractLsb' 12 4).toNat
  if op = 1 then { s with pending := some .build, tableValid := false }
  else if op = 2 then { s with pending := some .init }
  else if op = 3 then { s with pending := some (.fold8 (w.extractLsb' 0 8)) }
  else if op = 4 then { s with pending := some (.foldw s.data) }
  else if op = 5 then { s with pending := some .final }
  else s

/-- `t` is `s` with the sticky bit of `e` set and nothing else changed (60_exceptions.md R151, R152). -/
def raised (e : InterfaceError) (s : State) : State :=
  match e with
  | .errBusy => { s with errBusy := true }
  | .errBadcmd => { s with errBadcmd := true }
  | .errNotable => { s with errNotable := true }
  | .errSeq => { s with errSeq := true }

/-! ### The invariant (10_state.md R41) -/

/-- What holds in every state reachable from reset: the clauses (a) to (f) of 10_state.md R41, and what the model adds
beside them (the last five). -/
structure Inv (s : State) : Prop where
  /-- R41 (a) -/
  busyIffPending : (statusWord s).getLsbD 0 = true ↔ s.pending ≠ none
  /-- R41 (b) -/
  tableCorrect : s.tableValid = true → ∀ i : Byte, tableRead i s = tableFn i
  /-- R41 (c) -/
  sessionHasTable : s.active = true → s.pending ≠ some .build → s.tableValid = true
  /-- R41 (d) -/
  sessionCommands : ((∃ b, s.pending = some (.fold8 b)) ∨ (∃ w, s.pending = some (.foldw w)) ∨ s.pending = some .final) →
    s.active = true
  /-- R41 (e) -/
  tableCommands : (s.pending = some .init ∨ (∃ b, s.pending = some (.fold8 b)) ∨ (∃ w, s.pending = some (.foldw w))) →
    s.tableValid = true
  /-- R41 (f) -/
  reservedZero : statusWord s &&& 0xFFFFF0F0#32 = 0#32
  /-- A pending BUILD hides the table (10_state.md R24). -/
  buildHidesTable : s.pending = some .build → s.tableValid = false
  /-- RESULT is 0 until a FINAL has completed (10_state.md R30, 70_reset_and_hazards.md R175). -/
  resultZero : s.resultValid = false → s.result = 0#32
  /-- BASE is a multiple of 64 (20_memory.md R51). -/
  baseAligned : s.base % 64 = 0
  /-- BIDX is 0 to 256 (10_state.md R38). -/
  bidxRange : s.bidx.toNat ≤ 256
  /-- BCNT is 0 to 8 (10_state.md R38). -/
  bcntRange : s.bcnt.toNat ≤ 8

/-! ### What a host can observe -/

/-- The two states differ at most in what no host can see: TABLE while TABLE_VALID = 0, ACC while no session is open,
the builder's working registers (10_state.md R35, R36, R38), and the model's draw counter. -/
structure SameVisible (s t : State) : Prop where
  base : s.base = t.base
  tableValid : s.tableValid = t.tableValid
  active : s.active = t.active
  resultValid : s.resultValid = t.resultValid
  errBusy : s.errBusy = t.errBusy
  errBadcmd : s.errBadcmd = t.errBadcmd
  errNotable : s.errNotable = t.errNotable
  errSeq : s.errSeq = t.errSeq
  data : s.data = t.data
  result : s.result = t.result
  tidx : s.tidx = t.tidx
  pending : s.pending = t.pending
  schedule : s.schedule = t.schedule
  readLog : s.readLog = t.readLog
  table : s.tableValid = true → s.table = t.table
  acc : s.active = true → s.acc = t.acc

/-! ### Fault-free schedules and the end of a run -/

/-- The turn is not an access that is `fault BUS_UNSUPPORTED` (20_memory.md R54). -/
def turnSupported (base : Nat) (t : Turn) : Prop :=
  match t with
  | .host a => ∀ off, windowOffset base a.addr = some off → supported off a.width = true
  | .core => True
  | .reset => True

/-- The run has ended: the host has issued its last access, whatever turns of the core or the reset source are still to
come, and PENDING is empty; that no BUS_UNSUPPORTED occurred is that there is such a state at all
(70_reset_and_hazards.md R182). -/
def Ended (s : State) : Prop := (∀ a : Access, Turn.host a ∉ s.schedule) ∧ s.pending = none

/-! ### Sessions (41_hasher.md R117) -/

/-- A host access that submits no command: a read of a register (`k` is its word index in the window), or a write to
DATA, TIDX or STATUS. -/
inductive Quiet where
  | read (k : Fin 16)
  | wrData (v : Word)
  | wrTidx (v : Word)
  | wrStatus (v : Word)
  deriving DecidableEq, Repr

def Quiet.turn (base : Nat) (q : Quiet) : Turn :=
  match q with
  | .read k => readTurn base (4 * k.val)
  | .wrData v => writeTurn base 0x08 v
  | .wrTidx v => writeTurn base 0x10 v
  | .wrStatus v => writeTurn base 0x04 v

/-- DATA after these accesses. -/
def dataAfter : Word → List Quiet → Word
  | d, [] => d
  | _, .wrData v :: rest => dataAfter v rest
  | d, .read _ :: rest => dataAfter d rest
  | d, .wrTidx _ :: rest => dataAfter d rest
  | d, .wrStatus _ :: rest => dataAfter d rest

/-- One command of a session, with the accesses between its acceptance and its completion; or one other access. -/
inductive SessionItem where
  | fold8 (b : Byte) (between : List Quiet)
  | foldw (between : List Quiet)
  | build (between : List Quiet)
  | nop
  | quiet (q : Quiet)
  deriving DecidableEq, Repr

/-- A command accepted and completed, with accesses in between. -/
def cmdTurns (base : Nat) (i : Instr) (between : List Quiet) : List Turn :=
  cmdTurn base (encode i) :: (between.map (Quiet.turn base) ++ [.core])

def SessionItem.turns (base : Nat) (it : SessionItem) : List Turn :=
  match it with
  | .fold8 b q => cmdTurns base (.fold8 b) q
  | .foldw q => cmdTurns base .foldw q
  | .build q => cmdTurns base .build q
  | .nop => [cmdTurn base (encode .nop)]
  | .quiet q => [q.turn base]

def sessionBody (base : Nat) : List SessionItem → List Turn
  | [] => []
  | it :: rest => it.turns base ++ sessionBody base rest

/-- The bytes the items feed, in sequence order, when DATA is `d` at the start: FOLDW feeds the bytes DATA holds when it
is accepted (30_encoding.md R73, 20_memory.md R56). -/
def fedBytes : Word → List SessionItem → List Byte
  | _, [] => []
  | d, .fold8 b q :: rest => b :: fedBytes (dataAfter d q) rest
  | d, .foldw q :: rest => wordBytes d ++ fedBytes (dataAfter d q) rest
  | d, .build q :: rest => fedBytes (dataAfter d q) rest
  | d, .nop :: rest => fedBytes d rest
  | d, .quiet q :: rest => fedBytes (dataAfter d [q]) rest

/-- A whole session: INIT, the items, FINAL, each command accepted and completed in turn (41_hasher.md R117). -/
def sessionTurns (base : Nat) (atInit : List Quiet) (items : List SessionItem) (atFinal : List Quiet) : List Turn :=
  cmdTurns base .init atInit ++ (sessionBody base items ++ cmdTurns base .final atFinal)

end Sys2Proof.Machine
end

