-- ==== Sys2Proof/Certificates/Slice0/Obligations.lean ====
section
/-! DEFINITION. The statements for the provers. Each docstring names the rule of spec/ it formalises. Register offsets,
command words and status bits are written out as numbers, as the spec's tables give them. A turn is put before the turns
still to come by `onTurn`; what a read returns to the host is the head of the model's own `readLog` (log entry 10). -/

open Sys2Proof Sys2Proof.Machine

/-! ### Encoding (30_encoding.md) -/

/-- Decoding an encoded well-formed instruction gives it back, with every operand (30_encoding.md sections 1 to 3). -/
def Obligations.DecodeOfEncodeIsIdentity : Prop :=
  ∀ i : Instr, WellFormed i = true → decode (encode i) = .ok i

/-- A word that decodes is the encoding of the well-formed instruction it decodes to (30_encoding.md sections 1 to 3). -/
def Obligations.EncodeOfDecodeIsIdentity : Prop :=
  ∀ (w : Word) (i : Instr), decode w = .ok i → WellFormed i = true ∧ encode i = w

/-- The opcode map with the two reserved rows of opcode_table.json (30_encoding.md section 3): a word that decodes fits the
row of the instruction it decodes to, a word that does not decode fits no row, and no word fits two rows. -/
def Obligations.DecodeFollowsTheOpcodeTable : Prop :=
  (∀ (w : Word) (i : Instr), decode w = .ok i → i.row ∈ opcodeTable ∧ i.row.fits w = true) ∧
  (∀ (w : Word) (e : DecodeError), decode w = .error e → ∀ r ∈ opcodeTable, r.fits w = false) ∧
  (∀ (w : Word), ∀ r ∈ opcodeTable, ∀ r' ∈ opcodeTable, r.fits w = true → r'.fits w = true → r = r')

/-- R75: the formula `valid` holds of exactly the words that are one of the six commands, which are the words that fit one
of the first six rows of the table; a word that is not valid raises ERR_BADCMD when it is written to CMD while PENDING is
empty. -/
def Obligations.ValidWordsAreTheSixCommands : Prop :=
  (∀ w : Word, validWord w = true ↔ ∃ i, decode w = .ok i ∧ isCommand i = true) ∧
  (∀ w : Word, validWord w = true ↔ ∃ r ∈ opcodeTable.take 6, r.fits w = true) ∧
  (∀ (w : Word) (s : State), validWord w = false → s.pending = none →
    step (onTurn (cmdTurn s.base w) s) = .next { s with errBadcmd := true })

/-- Words written out from the format and the opcode map (30_encoding.md sections 1 and 3, 95_test_vectors.md 2.7). -/
def Obligations.SampleWordsDecode : Prop :=
  decode 0x00000000#32 = .ok .nop ∧ decode 0x00001000#32 = .ok .build ∧ decode 0x00002000#32 = .ok .init ∧
  decode 0x00003041#32 = .ok (.fold8 0x41#8) ∧ decode 0x00004000#32 = .ok .foldw ∧ decode 0x00005000#32 = .ok .final ∧
  decode 0x00006000#32 = .ok (.reservedOp67 0#16 6#4 0#4 0#8) ∧
  decode 0xFFFFFFFF#32 = .ok (.reservedOp8F 0xFFFF#16 15#4 15#4 0xFF#8) ∧
  decode 0x00004001#32 = .error .nonzeroImm8 ∧ decode 0x00013000#32 = .error .nonzeroRsvh ∧
  decode 0x00003100#32 = .error .nonzeroRsvm

/-! ### A CMD write (42_control.md R130, 60_exceptions.md R151 to R153) -/

/-- A CMD write of a word that decodes runs the instruction it decodes to, on the state whose turn it was; one that does
not decode raises ERR_BUSY or ERR_BADCMD; and `withFetchWord` makes its word the next one submitted. -/
def Obligations.StepRunsTheSubmittedCommand : Prop :=
  (∀ (s : State) (w : Word) (i : Instr), decode w = .ok i → step (onTurn (cmdTurn s.base w) s) = exec i s) ∧
  (∀ (s : State) (w : Word) (e : DecodeError), decode w = .error e →
    step (onTurn (cmdTurn s.base w) s) =
      .next (raised (if s.pending = none then .errBadcmd else .errBusy) s)) ∧
  (∀ (s : State) (w : Word) (i : Instr), decode w = .ok i → step (s.withFetchWord 32 w.toNat) = exec i s)

/-- R130 and R153: every CMD write of every word in every state raises the first error of the check order and changes
nothing else, or has the acceptance effect of its opcode. -/
def Obligations.CmdWriteFollowsTheCheckOrder : Prop :=
  ∀ (s : State) (w : Word),
    step (onTurn (cmdTurn s.base w) s) =
      .next (match cmdError w s with
        | some e => raised e s
        | none => acceptEffect w s)

/-- R152: a rejected word sets the STATUS bit whose index is its error's code (R151), and nothing else changes. -/
def Obligations.RejectedWordSetsOnlyItsErrorBit : Prop :=
  ∀ (s : State) (w : Word) (e : InterfaceError), cmdError w s = some e →
    ∃ t, step (onTurn (cmdTurn s.base w) s) = .next t ∧
      statusWord t = statusWord s ||| (1#32 <<< errorCode e) ∧
      t.pending = s.pending ∧ t.acc = s.acc ∧ t.table = s.table ∧ t.tableValid = s.tableValid ∧ t.active = s.active ∧
      t.result = s.result ∧ t.resultValid = s.resultValid ∧ t.data = s.data ∧ t.tidx = s.tidx ∧
      t.bidx = s.bidx ∧ t.bcnt = s.bcnt ∧ t.bacc = s.bacc ∧ t.base = s.base ∧ t.schedule = s.schedule ∧
      t.readLog = s.readLog ∧ t.draws = s.draws

/-- No command stops the machine: each answers a next state, from every state (60_exceptions.md section 1). -/
def Obligations.EveryCommandAnswersNext : Prop :=
  ∀ (i : Instr) (s : State), ∃ t, exec i s = .next t

/-- The frame of acceptance, for all eight rows: nothing changes but PENDING, the error bits and, for BUILD only,
TABLE_VALID; NOP and the reserved opcodes leave PENDING alone, and PENDING is never emptied or replaced. The registers
DATA, RESULT and TIDX, the hidden ACC, TABLE and builder registers, ACTIVE and RESULT_VALID stay. -/
def Obligations.AcceptanceFrame : Prop :=
  ∀ (i : Instr) (s t : State), exec i s = .next t →
    t.data = s.data ∧ t.result = s.result ∧ t.tidx = s.tidx ∧ t.acc = s.acc ∧
    (∀ a : Byte, tableRead a t = tableRead a s) ∧ t.active = s.active ∧ t.resultValid = s.resultValid ∧
    t.bidx = s.bidx ∧ t.bcnt = s.bcnt ∧ t.bacc = s.bacc ∧ t.base = s.base ∧ t.schedule = s.schedule ∧
    t.readLog = s.readLog ∧ t.draws = s.draws ∧
    (i ≠ .build → t.tableValid = s.tableValid) ∧
    (i = .nop ∨ isCommand i = false → t.pending = s.pending) ∧
    (s.pending ≠ none → t.pending = s.pending) ∧
    (t.pending ≠ s.pending → t.errBusy = s.errBusy ∧ t.errBadcmd = s.errBadcmd ∧ t.errNotable = s.errNotable ∧
      t.errSeq = s.errSeq)

/-! ### The commands, at acceptance and at completion -/

/-- R132: NOP has no effect and nothing to complete when PENDING is empty, raises ERR_BUSY otherwise, and ERR_BADCMD if
any of its other bits is nonzero; with the rule's example from reset. -/
def Obligations.NopHasNoEffect : Prop :=
  (∀ s : State, s.pending = none → exec .nop s = .next s ∧ step (onTurn (cmdTurn s.base 0x00000000#32) s) = .next s ∧
    step (onTurn .core s) = .next s) ∧
  (∀ s : State, s.pending ≠ none → exec .nop s = .next { s with errBusy := true }) ∧
  (∀ (s : State) (w : Word), s.pending = none → w.extractLsb' 12 4 = 0#4 → w ≠ 0x00000000#32 →
    step (onTurn (cmdTurn s.base w) s) = .next { s with errBadcmd := true }) ∧
  runTurns [cmdTurn 0 0x00000000#32, readTurn 0 0x04] State.reset = .next { State.reset with readLog := [0x00000000#32] }

/-- R100: BUILD is accepted whenever PENDING is empty, clears TABLE_VALID and hides the table; the core's next turn fills
every entry of TABLE with `T`, sets TABLE_VALID, empties PENDING, and leaves STATUS's other fields, ACC, RESULT, DATA and
TIDX alone; a reset before that leaves no BUILD to complete; its errors are ERR_BUSY and ERR_BADCMD only. In a state that
meets the invariant a BUILD over a valid table rewrites the same values and leaves an open session as it is. -/
def Obligations.BuildFillsTheTable : Prop :=
  (∀ s : State, s.pending = none →
    exec .build s = .next { s with pending := some .build, tableValid := false } ∧
    step (onTurn (cmdTurn s.base 0x00001000#32) s) = .next { s with pending := some .build, tableValid := false }) ∧
  (∀ s : State, s.pending = some .build → ∃ t, step (onTurn .core s) = .next t ∧
    (∀ i : Byte, tableRead i t = tableFn i) ∧ t.tableValid = true ∧ t.pending = none ∧
    t.active = s.active ∧ t.resultValid = s.resultValid ∧ t.acc = s.acc ∧ t.result = s.result ∧ t.data = s.data ∧
    t.tidx = s.tidx ∧ t.errBusy = s.errBusy ∧ t.errBadcmd = s.errBadcmd ∧ t.errNotable = s.errNotable ∧
    t.errSeq = s.errSeq ∧ t.base = s.base ∧ t.schedule = s.schedule ∧ t.readLog = s.readLog) ∧
  (∀ s : State, s.pending = none → ∃ t, exec .build s = .next t ∧ readReg 0x14 t = 0#32) ∧
  (∀ s : State, s.pending = some .build → ∃ t, step (onTurn .reset s) = .next t ∧ t.tableValid = false ∧
    step (onTurn .core t) = .next t) ∧
  (∀ s : State, s.pending ≠ none → exec .build s = .next { s with errBusy := true }) ∧
  (∀ (s : State) (w : Word), s.pending = none → w.extractLsb' 12 4 = 1#4 → w ≠ 0x00001000#32 →
    step (onTurn (cmdTurn s.base w) s) = .next { s with errBadcmd := true }) ∧
  (∀ s : State, Inv s → s.pending = none → s.tableValid = true → ∃ t,
    runTurns [cmdTurn s.base 0x00001000#32, .core] s = .next t ∧ t.table = s.table ∧ t.tableValid = true ∧
    t.active = s.active ∧ t.acc = s.acc) ∧
  (∃ t, runTurns [cmdTurn 0 0x00001000#32, .core, writeTurn 0 0x10 1#32, readTurn 0 0x14] State.reset = .next t ∧
    t.readLog = [0x77073096#32] ∧ statusWord t = 0x00000002#32)

/-- R113: INIT is accepted when PENDING is empty and TABLE_VALID = 1, whether or not a session is open; the core's next
turn sets ACC to all ones and ACTIVE to 1 and changes nothing else; a second INIT leaves the same state as one; its
errors are ERR_BUSY, ERR_BADCMD and ERR_NOTABLE. -/
def Obligations.InitOpensASession : Prop :=
  (∀ s : State, s.pending = none → s.tableValid = true →
    exec .init s = .next { s with pending := some .init } ∧
    step (onTurn (cmdTurn s.base 0x00002000#32) s) = .next { s with pending := some .init }) ∧
  (∀ s : State, s.pending = some .init →
    step (onTurn .core s) = .next { s with acc := 0xFFFFFFFF#32, active := true, pending := none }) ∧
  (∀ s : State, s.pending = none → s.tableValid = true →
    runTurns [cmdTurn s.base 0x00002000#32, .core, cmdTurn s.base 0x00002000#32, .core] s =
      runTurns [cmdTurn s.base 0x00002000#32, .core] s) ∧
  (∀ s : State, s.pending ≠ none → exec .init s = .next { s with errBusy := true }) ∧
  (∀ s : State, s.pending = none → s.tableValid = false → exec .init s = .next { s with errNotable := true }) ∧
  (∀ (s : State) (w : Word), s.pending = none → w.extractLsb' 12 4 = 2#4 → w ≠ 0x00002000#32 →
    step (onTurn (cmdTurn s.base w) s) = .next { s with errBadcmd := true }) ∧
  (∃ t, runTurns [cmdTurn 0 0x00001000#32, .core, cmdTurn 0 0x00002000#32, .core] State.reset = .next t ∧
    statusWord t = 0x00000006#32 ∧ t.acc = 0xFFFFFFFF#32)

/-- R114: FOLD8, for every byte, is accepted when PENDING is empty, TABLE_VALID = 1 and ACTIVE = 1; the core's next turn
folds the byte into ACC through TABLE and changes nothing else; written twice it folds the byte twice; its errors are ERR_BUSY, ERR_BADCMD, ERR_NOTABLE and
ERR_SEQ in that order. The corner cases and the example are for a complete table. -/
def Obligations.Fold8FoldsOneByte : Prop :=
  (∀ (b : Byte) (s : State), s.pending = none → s.tableValid = true → s.active = true →
    exec (.fold8 b) s = .next { s with pending := some (.fold8 b) } ∧
    step (onTurn (cmdTurn s.base (0x00003000#32 ||| b.setWidth 32)) s) = .next { s with pending := some (.fold8 b) }) ∧
  (∀ (b : Byte) (s : State), s.pending = some (.fold8 b) →
    step (onTurn .core s) =
      .next { s with acc := (s.acc >>> 8) ^^^ tableRead (s.acc.extractLsb' 0 8 ^^^ b) s, pending := none }) ∧
  (∀ (b : Byte) (s : State), s.pending = none → s.tableValid = true → s.active = true →
    runTurns [cmdTurn s.base (0x00003000#32 ||| b.setWidth 32), .core, cmdTurn s.base (0x00003000#32 ||| b.setWidth 32),
      .core] s = .next { s with acc := foldStep s (foldStep s s.acc b) b }) ∧
  (∀ (b : Byte) (s : State), s.pending ≠ none → exec (.fold8 b) s = .next { s with errBusy := true }) ∧
  (∀ (b : Byte) (s : State), s.pending = none → s.tableValid = false →
    exec (.fold8 b) s = .next { s with errNotable := true }) ∧
  (∀ (b : Byte) (s : State), s.pending = none → s.tableValid = true → s.active = false →
    exec (.fold8 b) s = .next { s with errSeq := true }) ∧
  (∀ (s : State) (w : Word), s.pending = none → w.extractLsb' 12 4 = 3#4 →
    (w.extractLsb' 16 16 ≠ 0#16 ∨ w.extractLsb' 8 4 ≠ 0#4) →
    step (onTurn (cmdTurn s.base w) s) = .next { s with errBadcmd := true }) ∧
  (∀ s : State, (∀ i : Byte, tableRead i s = tableFn i) →
    (∀ acc : Word, foldStep s acc (acc.extractLsb' 0 8) = acc >>> 8) ∧ foldStep s 0#32 0#8 = 0#32 ∧
    foldStep s 0x12345678#32 0x78#8 = 0x00123456#32 ∧ foldStep s 0xFFFFFFFF#32 0x31#8 = 0x7C231048#32)

/-- R115: FOLDW is accepted as FOLD8 is and latches DATA; the core's next turn folds the four bytes of the latched word,
least significant first, and changes nothing else; DATA may be rewritten after acceptance; its errors are those of
FOLD8, and ERR_BADCMD for a nonzero IMM8 too. The example, with the values ACC passes through, and DATA = 0, which is no
no-op, are for a complete table. -/
def Obligations.FoldwFoldsFourBytes : Prop :=
  (∀ s : State, s.pending = none → s.tableValid = true → s.active = true →
    exec .foldw s = .next { s with pending := some (.foldw s.data) } ∧
    step (onTurn (cmdTurn s.base 0x00004000#32) s) = .next { s with pending := some (.foldw s.data) }) ∧
  (∀ (w : Word) (s : State), s.pending = some (.foldw w) →
    step (onTurn .core s) = .next { s with
      acc := foldStep s (foldStep s (foldStep s (foldStep s s.acc (w.extractLsb' 0 8)) (w.extractLsb' 8 8))
        (w.extractLsb' 16 8)) (w.extractLsb' 24 8)
      pending := none }) ∧
  (∀ (w v : Word) (s : State), s.pending = some (.foldw w) →
    step (onTurn (writeTurn s.base 0x08 v) s) = .next { s with data := v }) ∧
  (∀ s : State, s.pending ≠ none → exec .foldw s = .next { s with errBusy := true }) ∧
  (∀ s : State, s.pending = none → s.tableValid = false → exec .foldw s = .next { s with errNotable := true }) ∧
  (∀ s : State, s.pending = none → s.tableValid = true → s.active = false →
    exec .foldw s = .next { s with errSeq := true }) ∧
  (∀ (s : State) (w : Word), s.pending = none → w.extractLsb' 12 4 = 4#4 → w ≠ 0x00004000#32 →
    step (onTurn (cmdTurn s.base w) s) = .next { s with errBadcmd := true }) ∧
  (∀ s : State, (∀ i : Byte, tableRead i s = tableFn i) → s.pending = some (.foldw 0x34333231#32) →
    s.acc = 0xFFFFFFFF#32 → ∃ t, step (onTurn .core s) = .next t ∧ t.acc = 0x641C1F5C#32) ∧
  (∀ s : State, (∀ i : Byte, tableRead i s = tableFn i) →
    foldStep s 0xFFFFFFFF#32 0x31#8 = 0x7C231048#32 ∧ foldStep s 0x7C231048#32 0x32#8 = 0xB0ACBB32#32 ∧
    foldStep s 0xB0ACBB32#32 0x33#8 = 0x77B79C2D#32 ∧ foldStep s 0x77B79C2D#32 0x34#8 = 0x641C1F5C#32) ∧
  (∀ s : State, (∀ i : Byte, tableRead i s = tableFn i) → s.pending = some (.foldw 0#32) → s.acc = 0xFFFFFFFF#32 →
    ∃ t, step (onTurn .core s) = .next t ∧ t.acc = 0xDEBB20E3#32)

/-- R116: FINAL is accepted when PENDING is empty and ACTIVE = 1, whatever TABLE_VALID is; the core's next turn puts the
complement of ACC into RESULT, sets RESULT_VALID, clears ACTIVE and changes nothing else, ACC included; a second FINAL
is rejected with ERR_SEQ and RESULT keeps the checksum; its errors are ERR_BUSY, ERR_BADCMD and ERR_SEQ. -/
def Obligations.FinalProducesTheChecksum : Prop :=
  (∀ s : State, s.pending = none → s.active = true →
    exec .final s = .next { s with pending := some .final } ∧
    step (onTurn (cmdTurn s.base 0x00005000#32) s) = .next { s with pending := some .final }) ∧
  (∀ s : State, s.pending = some .final →
    step (onTurn .core s) =
      .next { s with result := ~~~s.acc, resultValid := true, active := false, pending := none }) ∧
  (∀ s : State, s.pending = none → s.active = true → ∃ t,
    runTurns [cmdTurn s.base 0x00005000#32, .core, cmdTurn s.base 0x00005000#32] s = .next t ∧
    t.result = ~~~s.acc ∧ t.errSeq = true ∧ t.pending = none ∧ t.active = false) ∧
  (∀ s : State, s.pending ≠ none → exec .final s = .next { s with errBusy := true }) ∧
  (∀ s : State, s.pending = none → s.active = false → exec .final s = .next { s with errSeq := true }) ∧
  (∀ (s : State) (w : Word), s.pending = none → w.extractLsb' 12 4 = 5#4 → w ≠ 0x00005000#32 →
    step (onTurn (cmdTurn s.base w) s) = .next { s with errBadcmd := true }) ∧
  (∀ s : State, s.pending = some .final → s.acc = 0x340BC6D9#32 → statusWord s = 0x00000007#32 → ∃ t,
    step (onTurn .core s) = .next t ∧ t.result = 0xCBF43926#32 ∧ statusWord t = 0x0000000A#32) ∧
  (∀ s : State, s.pending = some .final → s.acc = 0xFFFFFFFF#32 → ∃ t, step (onTurn .core s) = .next t ∧
    t.result = 0#32)

/-- R133: a reserved opcode, whatever the word's other bits, raises ERR_BADCMD when PENDING is empty and ERR_BUSY
otherwise, and has no other effect. -/
def Obligations.ReservedOpcodesAreRejected : Prop :=
  (∀ (h : BitVec 16) (op m : BitVec 4) (b : Byte) (s : State), s.pending = none →
    exec (.reservedOp67 h op m b) s = .next { s with errBadcmd := true } ∧
    exec (.reservedOp8F h op m b) s = .next { s with errBadcmd := true }) ∧
  (∀ (h : BitVec 16) (op m : BitVec 4) (b : Byte) (s : State), s.pending ≠ none →
    exec (.reservedOp67 h op m b) s = .next { s with errBusy := true } ∧
    exec (.reservedOp8F h op m b) s = .next { s with errBusy := true }) ∧
  (∀ (s : State) (w : Word), 6 ≤ (w.extractLsb' 12 4).toNat →
    step (onTurn (cmdTurn s.base w) s) =
      .next (if s.pending = none then { s with errBadcmd := true } else { s with errBusy := true })) ∧
  (∃ t, runTurns [cmdTurn 0 0x00006000#32] State.reset = .next t ∧ statusWord t = 0x00000200#32)

/-! ### The table builder -/

/-- R101 and R102: the reflection step, and `T` as eight of them from the zero-extended index. -/
def Obligations.TableFunctionIsEightReflections : Prop :=
  (∀ a : Word, reflStep a = if a.getLsbD 0 = true then 0xEDB88320#32 ^^^ (a >>> 1) else a >>> 1) ∧
  (∀ i : Byte, tableFn i = reflStep (reflStep (reflStep (reflStep (reflStep (reflStep (reflStep (reflStep (i.setWidth 32)))))))))

/-- R103: the micro-sequence, run from any contents of the builder's registers and of TABLE, leaves `T(i)` at every index,
BIDX = 256, BCNT = 8, BACC = `T(255)`, and changes nothing else; so the atomic completion of BUILD is the micro-sequence
followed by the end of BUILD. (That end leaves the three registers unspecified, 10_state.md R38, log entry 7.) -/
def Obligations.MicroSequenceComputesTheTable : Prop :=
  ∀ s : State,
    (∃ v : Vector Word 256,
      builderRun s = { s with table := v, bidx := 256#9, bcnt := 8#4, bacc := tableFn 255#8 }) ∧
    (∀ i : Byte, tableRead i (builderRun s) = tableFn i) ∧
    (s.pending = some .build → step (onTurn .core s) = .next (finishBuild (builderRun s)))

/-- R104: what a completed BUILD leaves in TABLE is `T` at every index, the same for any two states, whatever TABLE, ACC,
DATA and TIDX held before. -/
def Obligations.BuildIsDeterministic : Prop :=
  ∀ s s' t t' : State, s.pending = some .build → s'.pending = some .build →
    step (onTurn .core s) = .next t → step (onTurn .core s') = .next t' →
    t.table = t'.table ∧ ∀ i : Byte, tableRead i t = tableFn i

/-- R105: the two properties the source gives. -/
def Obligations.TableEntriesZeroAndOne : Prop :=
  tableFn 0#8 = 0x00000000#32 ∧ tableFn 1#8 = 0x77073096#32

/-- R107: linearity of the reflection step and of `T` over XOR, `T(0x80)`, and `T(i)` as the XOR of `T(2^k)` over the set
bits `k` of `i`. -/
def Obligations.TableFunctionIsLinear : Prop :=
  (∀ a c : Word, reflStep (a ^^^ c) = reflStep a ^^^ reflStep c) ∧
  (∀ i j : Byte, tableFn (i ^^^ j) = tableFn i ^^^ tableFn j) ∧ tableFn 0#8 = 0#32 ∧
  tableFn 0x80#8 = 0xEDB88320#32 ∧
  (∀ i : Byte, tableFn i = (List.range 8).foldl
    (fun a k => a ^^^ if i.getLsbD k = true then tableFn (1#8 <<< k) else 0#32) 0#32)

/-! ### The folding engine -/

/-- R110: the fold step, and the same with `T` for TABLE while TABLE_VALID = 1 in a state that meets the invariant. -/
def Obligations.FoldStepFormula : Prop :=
  (∀ (s : State) (acc : Word) (b : Byte),
    foldStep s acc b = (acc >>> 8) ^^^ tableRead (acc.extractLsb' 0 8 ^^^ b) s) ∧
  (∀ (acc : Word) (b : Byte), ((acc &&& 0xFF#32) ^^^ b.setWidth 32) = (acc.extractLsb' 0 8 ^^^ b).setWidth 32) ∧
  (∀ (s : State) (acc : Word) (b : Byte), Inv s → s.tableValid = true →
    foldStep s acc b = (acc >>> 8) ^^^ tableFn (acc.extractLsb' 0 8 ^^^ b))

/-- R119: the one-byte closed form, with the rule's examples. -/
def Obligations.OneByteClosedForm : Prop :=
  (∀ b : Byte, crcHash [b] = ~~~((0xFFFFFFFF#32 >>> 8) ^^^ tableFn (0xFF#8 ^^^ b)) ∧
    crcHash [b] = tableFn (0xFF#8 ^^^ b) ^^^ 0xFF000000#32) ∧
  crcHash [0x00#8] = 0xD202EF8D#32 ∧ crcHash [0xFF#8] = 0xFF000000#32 ∧ crcHash [0x61#8] = 0xE8B7BE43#32

/-- R122: the reference values the source pins ("123456789" as its ASCII bytes). -/
def Obligations.ReferenceValues : Prop :=
  crcHash [0x31#8, 0x32#8, 0x33#8, 0x34#8, 0x35#8, 0x36#8, 0x37#8, 0x38#8, 0x39#8] = 0xCBF43926#32 ∧ crcHash [] = 0x00000000#32

/-- R56: byte `k` of a word is bits `8k+7` to `8k`, and a word assembled from four bytes in sequence order has them in that
order; FOLDW folds the bytes in that order. -/
def Obligations.WordBytesAreLittleEndian : Prop :=
  (∀ w : Word, wordBytes w = [w.extractLsb' 0 8, w.extractLsb' 8 8, w.extractLsb' 16 8, w.extractLsb' 24 8]) ∧
  (∀ b0 b1 b2 b3 : Byte, wordBytes (wordOfBytes b0 b1 b2 b3) = [b0, b1, b2, b3]) ∧
  (∀ (s : State) (w : Word), s.pending = some (.foldw w) → ∃ t, step (onTurn .core s) = .next t ∧
    t.acc = (wordBytes w).foldl (foldStep s) s.acc)

/-- R120: FOLDW leaves the same state as the four FOLD8 of its bytes, in order, each accepted and completed in turn. -/
def Obligations.FoldwEqualsFourFold8 : Prop :=
  ∀ s : State, s.pending = none → s.tableValid = true → s.active = true → ∃ t,
    runTurns [cmdTurn s.base 0x00004000#32, .core] s = .next t ∧
    runTurns [cmdTurn s.base (encode (.fold8 (s.data.extractLsb' 0 8))), .core,
      cmdTurn s.base (encode (.fold8 (s.data.extractLsb' 8 8))), .core,
      cmdTurn s.base (encode (.fold8 (s.data.extractLsb' 16 8))), .core,
      cmdTurn s.base (encode (.fold8 (s.data.extractLsb' 24 8))), .core] s = .next t

/-- R118: INIT followed directly by FINAL gives the empty-input checksum, from every state with a table and no command
pending. -/
def Obligations.EmptyInputGivesZero : Prop :=
  ∀ s : State, s.pending = none → s.tableValid = true → ∃ t,
    runTurns [cmdTurn s.base 0x00002000#32, .core, cmdTurn s.base 0x00005000#32, .core] s = .next t ∧
    t.result = 0x00000000#32 ∧ t.resultValid = true

/-- R117: a session of INIT, any items and FINAL, each command accepted and completed in turn, with any BUILDs, NOPs, reads
and writes to DATA, TIDX and STATUS in between, ends with RESULT = `crcHash` of the bytes fed and RESULT_VALID = 1. The turns
run are exactly the session's. -/
def Obligations.SessionComputesTheHash : Prop :=
  ∀ (s : State) (atInit : List Quiet) (items : List SessionItem) (atFinal : List Quiet),
    Inv s → s.tableValid = true → s.pending = none → ∃ t,
      runTurns (sessionTurns s.base atInit items atFinal) s = .next t ∧
      t.result = crcHash (fedBytes (dataAfter s.data atInit) items) ∧ t.resultValid = true ∧
      t.active = false ∧ t.pending = none ∧ t.tableValid = true ∧ t.schedule = s.schedule

/-- R121: two sessions, from any two states and with any mix of FOLD8 and FOLDW, any BUILDs and any accesses in between,
that feed the same bytes leave the same RESULT. -/
def Obligations.SessionsOfTheSameBytesAgree : Prop :=
  ∀ (s s' t t' : State) (p p' q q' : List Quiet) (items items' : List SessionItem),
    Inv s → Inv s' → s.tableValid = true → s'.tableValid = true → s.pending = none → s'.pending = none →
    fedBytes (dataAfter s.data p) items = fedBytes (dataAfter s'.data p') items' →
    runTurns (sessionTurns s.base p items q) s = .next t → runTurns (sessionTurns s'.base p' items' q') s' = .next t' →
    t.result = t'.result

/-! ### Register accesses -/

/-- R28, with the whole layout of STATUS (10_state.md section 2): each field at its bit, the reserved bits 0, also after a
write to STATUS of any value, whose bits in reserved places make no difference. -/
def Obligations.StatusWordLayout : Prop :=
  (∀ s : State, (statusWord s).getLsbD 0 = decide (s.pending ≠ none) ∧ (statusWord s).getLsbD 1 = s.tableValid ∧
    (statusWord s).getLsbD 2 = s.active ∧ (statusWord s).getLsbD 3 = s.resultValid ∧
    (statusWord s).getLsbD 8 = s.errBusy ∧ (statusWord s).getLsbD 9 = s.errBadcmd ∧
    (statusWord s).getLsbD 10 = s.errNotable ∧ (statusWord s).getLsbD 11 = s.errSeq ∧
    (∀ k, (4 ≤ k ∧ k ≤ 7) ∨ 12 ≤ k → (statusWord s).getLsbD k = false)) ∧
  (∀ (s : State) (v : Word), ∃ t, step (onTurn (writeTurn s.base 0x04 v) s) = .next t ∧
    ∀ k, (4 ≤ k ∧ k ≤ 7) ∨ 12 ≤ k → (statusWord t).getLsbD k = false) ∧
  (∀ (s : State) (v : Word), step (onTurn (writeTurn s.base 0x04 v) s) =
    step (onTurn (writeTurn s.base 0x04 (v &&& 0x00000F0F#32)) s))

/-- Every aligned 32-bit read of the window returns the register's value and changes nothing of the block
(10_state.md section 2; the value goes to the model's own `readLog`, log entry 10). -/
def Obligations.ReadsReturnRegistersWithoutSideEffect : Prop :=
  ∀ (s : State) (k : Fin 16), step (onTurn (readTurn s.base (4 * k.val)) s) = .next { s with readLog :=
    (match k.val with
      | 1 => statusWord s
      | 2 => s.data
      | 3 => s.result
      | 4 => s.tidx.setWidth 32
      | 5 => if s.tableValid = true then tableRead s.tidx s else 0x00000000#32
      | 6 => 0xEDB88320#32
      | _ => 0x00000000#32) :: s.readLog }

/-- R134: a write of `v` to STATUS clears exactly the error bits that `v` has a 1 for; every other bit of STATUS and all
other state stay, whether or not the block is busy. -/
def Obligations.StatusWriteClearsNamedErrors : Prop :=
  (∀ (s : State) (v : Word), ∃ t, step (onTurn (writeTurn s.base 0x04 v) s) = .next t ∧
    statusWord t = statusWord s &&& ~~~(v &&& 0x00000F00#32) ∧
    t = { s with errBusy := t.errBusy, errBadcmd := t.errBadcmd, errNotable := t.errNotable, errSeq := t.errSeq }) ∧
  (∀ s : State, statusWord s = 0x00000B02#32 → ∃ t, step (onTurn (writeTurn s.base 0x04 0x00000100#32) s) = .next t ∧
    statusWord t = 0x00000A02#32)

/-- R135: a write to DATA stores the whole value at any time, changes nothing else, PENDING included, and a DATA read
returns it. -/
def Obligations.DataWriteStoresTheValue : Prop :=
  ∀ (s : State) (v : Word), step (onTurn (writeTurn s.base 0x08 v) s) = .next { s with data := v } ∧
    runTurns [writeTurn s.base 0x08 v, readTurn s.base 0x08] s = .next { s with data := v, readLog := v :: s.readLog }

/-- R136: a write to TIDX stores bits [7:0] at any time and changes nothing else; a TIDX read returns them zero-extended,
and the next TDATA read uses the new index. -/
def Obligations.TidxWriteStoresTheIndex : Prop :=
  ∀ (s : State) (v : Word),
    step (onTurn (writeTurn s.base 0x10 v) s) = .next { s with tidx := v.extractLsb' 0 8 } ∧
    runTurns [writeTurn s.base 0x10 v, readTurn s.base 0x10] s =
      .next { s with tidx := v.extractLsb' 0 8, readLog := (v &&& 0xFF#32) :: s.readLog } ∧
    runTurns [writeTurn s.base 0x10 v, readTurn s.base 0x14] s =
      .next { s with tidx := v.extractLsb' 0 8, readLog :=
        (if s.tableValid = true then tableRead (v.extractLsb' 0 8) s else 0#32) :: s.readLog }

/-- R137: writes to RESULT, TDATA, POLY and the reserved offsets change nothing, and a read of CMD returns 0 and changes
nothing of the block. -/
def Obligations.IgnoredAccesses : Prop :=
  (∀ (s : State) (v : Word) (k : Fin 16), k.val = 3 ∨ k.val = 5 ∨ k.val = 6 ∨ 7 ≤ k.val →
    step (onTurn (writeTurn s.base (4 * k.val) v) s) = .next s) ∧
  (∀ s : State, step (onTurn (readTurn s.base 0x00) s) = .next { s with readLog := 0x00000000#32 :: s.readLog })

/-- R138: while a command is pending every read returns the current state, STATUS with BUSY = 1 and RESULT as it was; writes
to STATUS, DATA and TIDX take effect; the other writes are ignored; only a CMD write is rejected, with ERR_BUSY. -/
def Obligations.AccessesWhileBusy : Prop :=
  ∀ s : State, s.pending ≠ none →
    (∀ k : Fin 16, step (onTurn (readTurn s.base (4 * k.val)) s) =
      .next { s with readLog := readReg (4 * k.val) s :: s.readLog }) ∧
    (readReg 0x04 s).getLsbD 0 = true ∧ readReg 0x0C s = s.result ∧
    (∀ v : Word, ∃ t, step (onTurn (writeTurn s.base 0x04 v) s) = .next t ∧
      statusWord t = statusWord s &&& ~~~(v &&& 0x00000F00#32) ∧ t.pending = s.pending) ∧
    (∀ v : Word, step (onTurn (writeTurn s.base 0x08 v) s) = .next { s with data := v }) ∧
    (∀ v : Word, step (onTurn (writeTurn s.base 0x10 v) s) = .next { s with tidx := v.extractLsb' 0 8 }) ∧
    (∀ (v : Word) (k : Fin 16), k.val = 3 ∨ k.val = 5 ∨ k.val = 6 ∨ 7 ≤ k.val →
      step (onTurn (writeTurn s.base (4 * k.val) v) s) = .next s) ∧
    (∀ w : Word, step (onTurn (cmdTurn s.base w) s) = .next { s with errBusy := true })

/-- R54: an access inside the window of a width other than 4 bytes, or at an offset that is no multiple of 4, is the fault
BUS_UNSUPPORTED, read or write, in every state. -/
def Obligations.UnsupportedAccessesFault : Prop :=
  ∀ (s : State) (off width : Nat) (v : Word), off ≤ 0x3F → width ≠ 4 ∨ off % 4 ≠ 0 →
    step (onTurn (.host (.read (s.base + off) width)) s) = .fault .busUnsupported ∧
    step (onTurn (.host (.write (s.base + off) width v)) s) = .fault .busUnsupported

/-- An access whose start address is outside the window leaves the block alone and returns nothing of it (20_memory.md
section 1). Two parts of this are the model's own choice: that the machine goes on (log entry 8), and that an access which
starts below the window and is wide enough to reach into it is taken as outside, by its start address (log entry 15). -/
def Obligations.AccessesOutsideTheWindowChangeNothing : Prop :=
  ∀ (s : State) (addr width : Nat) (v : Word), addr < s.base ∨ s.base + 0x3F < addr →
    step (onTurn (.host (.read addr width)) s) = .next s ∧ step (onTurn (.host (.write addr width v)) s) = .next s

/-- R176: TDATA reads 0 whenever TABLE_VALID = 0, and in a state that meets the invariant reads `T` of the index when
TABLE_VALID = 1; after reset and from a BUILD's acceptance to its completion it reads 0. -/
def Obligations.TdataReadsZeroWithoutTable : Prop :=
  (∀ s : State, s.tableValid = false →
    step (onTurn (readTurn s.base 0x14) s) = .next { s with readLog := 0x00000000#32 :: s.readLog }) ∧
  (∀ s : State, Inv s → s.tableValid = true →
    step (onTurn (readTurn s.base 0x14) s) = .next { s with readLog := tableFn s.tidx :: s.readLog }) ∧
  (∀ s : State, Inv s → s.pending = some .build →
    step (onTurn (readTurn s.base 0x14) s) = .next { s with readLog := 0x00000000#32 :: s.readLog }) ∧
  (∀ s : State, ∃ t, step (onTurn .reset s) = .next t ∧ readReg 0x14 t = 0x00000000#32)

/-! ### What changes what: rules about the whole machine -/

/-- R24: the only steps that change TABLE_VALID are reset, the acceptance of a BUILD (both to 0) and its completion
(to 1), and each of the three does so; a step from a state that meets the invariant to one with TABLE_VALID = 1 leaves `T` at every
index of TABLE. -/
def Obligations.TableValidChangesOnlyByBuildOrReset : Prop :=
  (∀ s t : State, step s = .next t → t.tableValid ≠ s.tableValid →
    (resetActs s ∧ t.tableValid = false) ∨
    (hostWrites 0x00 0x00001000#32 s ∧ s.pending = none ∧ t.pending = some .build ∧ t.tableValid = false) ∨
    (coreActs s ∧ s.pending = some .build ∧ t.pending = none ∧ t.tableValid = true)) ∧
  (∀ s : State, ∃ t, step (onTurn .reset s) = .next t ∧ t.tableValid = false) ∧
  (∀ s : State, s.pending = none → ∃ t, step (onTurn (cmdTurn s.base 0x00001000#32) s) = .next t ∧ t.tableValid = false) ∧
  (∀ s : State, s.pending = some .build → ∃ t, step (onTurn .core s) = .next t ∧ t.tableValid = true) ∧
  (∀ s t : State, Inv s → step s = .next t → t.tableValid = true → ∀ i : Byte, tableRead i t = tableFn i)

/-- R25: the only steps that change ACTIVE are the completion of INIT (to 1), the completion of FINAL and reset (to 0). -/
def Obligations.ActiveChangesOnlyByInitFinalReset : Prop :=
  (∀ s t : State, step s = .next t → t.active ≠ s.active →
    (coreActs s ∧ s.pending = some .init ∧ t.active = true) ∨
    (coreActs s ∧ s.pending = some .final ∧ t.active = false) ∨ (resetActs s ∧ t.active = false)) ∧
  (∀ s : State, s.pending = some .init → ∃ t, step (onTurn .core s) = .next t ∧ t.active = true) ∧
  (∀ s : State, s.pending = some .final → ∃ t, step (onTurn .core s) = .next t ∧ t.active = false) ∧
  (∀ s : State, ∃ t, step (onTurn .reset s) = .next t ∧ t.active = false)

/-- R26 and R30: RESULT and RESULT_VALID change only when a FINAL completes, RESULT to the complement of ACC and RESULT_VALID
to 1, or at reset, both to 0, and both of these do so; host writes to RESULT are ignored. -/
def Obligations.ResultChangesOnlyAtFinalOrReset : Prop :=
  (∀ s t : State, step s = .next t →
    (t.result = s.result ∧ t.resultValid = s.resultValid) ∨
    (coreActs s ∧ s.pending = some .final ∧ t.result = ~~~s.acc ∧ t.resultValid = true) ∨
    (resetActs s ∧ t.result = 0#32 ∧ t.resultValid = false)) ∧
  (∀ s : State, s.pending = some .final → ∃ t, step (onTurn .core s) = .next t ∧ t.result = ~~~s.acc ∧
    t.resultValid = true) ∧
  (∀ s : State, ∃ t, step (onTurn .reset s) = .next t ∧ t.result = 0x00000000#32 ∧ t.resultValid = false) ∧
  (∀ (s : State) (v : Word), step (onTurn (writeTurn s.base 0x0C v) s) = .next s)

/-- R112, first sentence, with reset: a step leaves ACC, sets it to all ones (INIT completing), to fold steps of its old
value (FOLD8, FOLDW completing), or to 0 (reset). -/
def Obligations.AccumulatorIsNeverSeeded : Prop :=
  ∀ s t : State, step s = .next t → t.acc ≠ s.acc →
    (coreActs s ∧ s.pending = some .init ∧ t.acc = 0xFFFFFFFF#32) ∨
    (∃ b, coreActs s ∧ s.pending = some (.fold8 b) ∧ t.acc = foldStep s s.acc b) ∨
    (∃ w, coreActs s ∧ s.pending = some (.foldw w) ∧ t.acc = (wordBytes w).foldl (foldStep s) s.acc) ∨
    (resetActs s ∧ t.acc = 0#32)

/-- R27: a rejected word's error sets its bit; an error bit that is 1 stays 1 until a STATUS write with a 1 in its place or
reset; such a write clears it and a 0 leaves it; with an error bit set the block still accepts every command it would accept
without it, and rejects no other, and still completes what is pending; after reset all four are 0. -/
def Obligations.ErrorBitsAreSticky : Prop :=
  (∀ (s t : State) (e : InterfaceError), step s = .next t → (statusWord s).getLsbD (errorCode e) = true →
    (statusWord t).getLsbD (errorCode e) = true ∨ resetActs s ∨
    ∃ v, hostWrites 0x04 v s ∧ v.getLsbD (errorCode e) = true) ∧
  (∀ (s : State) (w : Word) (e : InterfaceError), cmdError w s = some e → ∃ t,
    step (onTurn (cmdTurn s.base w) s) = .next t ∧ (statusWord t).getLsbD (errorCode e) = true) ∧
  (∀ (s : State) (v : Word), ∃ t, step (onTurn (writeTurn s.base 0x04 v) s) = .next t ∧ ∀ e : InterfaceError,
    (statusWord t).getLsbD (errorCode e) = ((statusWord s).getLsbD (errorCode e) && !v.getLsbD (errorCode e))) ∧
  (∀ (s : State) (w : Word) (e : InterfaceError),
    step (onTurn (cmdTurn s.base w) (raised e s)) = .next (match cmdError w s with
      | some e' => raised e' (raised e s)
      | none => acceptEffect w (raised e s))) ∧
  (∀ (s : State) (c : Command) (e : InterfaceError), s.pending = some c →
    step (onTurn .core (raised e s)) = .next (raised e (complete c s))) ∧
  (∀ s : State, ∃ t, step (onTurn .reset s) = .next t ∧ ∀ e, (statusWord t).getLsbD (errorCode e) = false)

/-- No step changes DATA or TIDX but a host write to that register or reset (10_state.md section 2). -/
def Obligations.DataAndTidxChangeOnlyByHostOrReset : Prop :=
  ∀ s t : State, step s = .next t →
    (t.data = s.data ∨ (∃ v, hostWrites 0x08 v s ∧ t.data = v) ∨ (resetActs s ∧ t.data = 0#32)) ∧
    (t.tidx = s.tidx ∨ (∃ v, hostWrites 0x10 v s ∧ t.tidx = v.extractLsb' 0 8) ∨ (resetActs s ∧ t.tidx = 0#8))

/-- TABLE is written only by a completing BUILD, or becomes unspecified at reset; the platform's BASE never changes
(10_state.md section 3, 40_table_builder.md section 3, 20_memory.md section 1). -/
def Obligations.TableHasOneWriter : Prop :=
  ∀ s t : State, step s = .next t →
    (t.table = s.table ∨ (coreActs s ∧ s.pending = some .build ∧ ∀ i : Byte, tableRead i t = tableFn i) ∨
      (resetActs s ∧ t.tableValid = false)) ∧ t.base = s.base

/-! ### The core and the end of a run -/

/-- The core's turn performs the completion of the pending command and empties PENDING; with PENDING empty it changes
nothing (42_control.md section 1; that a core turn may come up with nothing pending is the model's, log entry 3). -/
def Obligations.CoreTurnCompletesThePendingCommand : Prop :=
  (∀ s : State, s.pending = none → step (onTurn .core s) = .next s) ∧
  (∀ (s : State) (c : Command), s.pending = some c →
    step (onTurn .core s) = .next (complete c s) ∧ (complete c s).pending = none)

/-- R62: after a command is accepted, and until a core turn or a reset, any number of host accesses leave it pending and a
STATUS read shows BUSY = 1; so BUSY = 0 is read only after the completion, whose effects every later access sees. -/
def Obligations.BusyReadsOneUntilCompletion : Prop :=
  ∀ (s t : State) (c : Command) (accesses : List Access), s.pending = some c →
    runTurns (accesses.map Turn.host) s = .next t →
    t.pending = some c ∧
    (∃ u v, step (onTurn (readTurn t.base 0x04) t) = .next u ∧ u.readLog = v :: t.readLog ∧ v.getLsbD 0 = true) ∧
    (∃ u, step (onTurn .core t) = .next u ∧ u = complete c t ∧ (statusWord u).getLsbD 0 = false)

/-- Weak fairness (42_control.md section 1, log entry 2): a run over a schedule without an unsupported access goes through
it without stopping and then has ended (70_reset_and_hazards.md section 4), with nothing pending and no turn left. A run that
has ended stays so and returns nothing more to the host, whatever turns of the core and the reset source are still to come;
with no turn left it stays as it is, which is the model's own idling (log entry 2). Going through the schedule rests on three
more choices of the model: it goes on after an access outside the window (log entry 8), it takes an access that starts below
the window and is wide enough to reach into it as one outside (log entry 15), and a core turn with nothing pending does
nothing (log entry 3). -/
def Obligations.PendingCommandsComplete : Prop :=
  (∀ s : State, (∀ t ∈ s.schedule, turnSupported s.base t) →
    ∃ t, Sys2Proof.core.run (s.schedule.length + 1) s = .next t ∧ Ended t ∧ t.schedule = []) ∧
  (∀ s : State, Ended s → ∃ t, step s = .next t ∧ Ended t ∧ t.readLog = s.readLog) ∧
  (∀ s : State, Ended s → s.schedule = [] → step s = .next s)

/-- The race of 95_test_vectors.md P2, lines 3 to 5: after a BUILD is accepted, an INIT written before the core's turn is
rejected with ERR_BUSY, and one written after it is accepted; both orders are runs of the model (42_control.md
section 1). -/
def Obligations.BothOrdersOfBuildAndInitAreAdmitted : Prop :=
  ∀ s : State, s.pending = none →
    (∃ t, runTurns [cmdTurn s.base 0x00001000#32, cmdTurn s.base 0x00002000#32, .core] s = .next t ∧
      t.errBusy = true ∧ t.tableValid = true ∧ t.active = s.active ∧ t.pending = none) ∧
    (∃ t, runTurns [cmdTurn s.base 0x00001000#32, .core, cmdTurn s.base 0x00002000#32] s = .next t ∧
      t.errBusy = s.errBusy ∧ t.tableValid = true ∧ t.pending = some .init)

/-- R175: from a FINAL's acceptance to its completion, whatever accesses the host makes in between, a read of RESULT returns
the RESULT from before the FINAL, which is 0 if none has completed since reset (in a state that meets the invariant); after
the completion it returns the new checksum, with RESULT_VALID = 1. -/
def Obligations.ResultIsOldUntilFinalCompletes : Prop :=
  ∀ s : State, Inv s → s.pending = none → s.active = true →
    (∃ t, runTurns [cmdTurn s.base 0x00005000#32, readTurn s.base 0x0C] s = .next t ∧
      t.readLog = s.result :: s.readLog) ∧
    (s.resultValid = false → s.result = 0x00000000#32) ∧
    (∃ t, runTurns [cmdTurn s.base 0x00005000#32, .core, readTurn s.base 0x0C] s = .next t ∧
      t.readLog = (~~~s.acc) :: s.readLog ∧ t.resultValid = true) ∧
    (∀ (accesses : List Access) (t : State),
      runTurns (cmdTurn s.base 0x00005000#32 :: accesses.map Turn.host) s = .next t →
      (∃ u, step (onTurn (readTurn s.base 0x0C) t) = .next u ∧ u.readLog = s.result :: t.readLog) ∧
      (∃ u, runTurns [.core, readTurn s.base 0x0C] t = .next u ∧ u.readLog = (~~~s.acc) :: t.readLog ∧
        u.resultValid = true))

/-- R178: a DATA write after FOLDW's acceptance, before its completion, is kept in DATA and is not part of that FOLDW. -/
def Obligations.DataMayBeRewrittenAfterFoldw : Prop :=
  ∀ (s : State) (v : Word), s.pending = none → s.tableValid = true → s.active = true →
    runTurns [cmdTurn s.base 0x00004000#32, writeTurn s.base 0x08 v, .core] s =
      .next { s with data := v, acc := (wordBytes s.data).foldl (foldStep s) s.acc }

/-! ### Reset -/

/-- The state after reset has the values the spec gives: STATUS, DATA, RESULT, TIDX and ACC 0, PENDING empty, POLY the
constant, TDATA reading 0 (10_state.md section 1). It says nothing of TABLE and the builder's registers, which the spec
leaves unspecified. -/
def Obligations.ResetStateHasTheSpecValues : Prop :=
  statusWord State.reset = 0x00000000#32 ∧ State.reset.data = 0#32 ∧ State.reset.result = 0#32 ∧
  readReg 0x10 State.reset = 0#32 ∧ State.reset.pending = none ∧ State.reset.acc = 0#32 ∧
  readReg 0x18 State.reset = 0xEDB88320#32 ∧ readReg 0x14 State.reset = 0#32

/-- R170: a reset turn, in every state, busy or not, sets every item to the reset value the spec gives it and raises no
error. TABLE and the builder's registers are unspecified afterwards. -/
def Obligations.ResetTurnSetsTheResetValues : Prop :=
  ∀ s : State, ∃ t, step (onTurn .reset s) = .next t ∧
    statusWord t = 0x00000000#32 ∧ t.data = 0#32 ∧ t.result = 0#32 ∧ readReg 0x10 t = 0#32 ∧ t.pending = none ∧
    t.acc = 0#32 ∧ readReg 0x18 t = 0xEDB88320#32 ∧ readReg 0x14 t = 0#32

/-- R171: whatever was pending, after a reset turn no completion step of it runs, however many turns the core gets; ACTIVE
and TABLE_VALID are 0, so neither a session nor a partly written table is left. -/
def Obligations.ResetAbandonsThePendingCommand : Prop :=
  ∀ (s : State) (n : Nat), ∃ t, step (onTurn .reset s) = .next t ∧
    t.pending = none ∧ t.active = false ∧ t.tableValid = false ∧ readReg 0x14 t = 0#32 ∧ t.result = 0#32 ∧
    runTurns (List.replicate n .core) t = .next t

/-! ### Invariants and what cannot be observed -/

/-- The reset state meets the invariant. -/
def Obligations.ResetMeetsTheInvariant : Prop := Inv State.reset

/-- Every step keeps the invariant, from every state that meets it: the clauses of R41, that a pending BUILD hides the
table, that RESULT is 0 until a FINAL has completed, that BASE stays a multiple of 64, and the ranges of BIDX and
BCNT. -/
def Obligations.StepKeepsTheInvariant : Prop :=
  ∀ s t : State, Inv s → step s = .next t → Inv t

/-- R41: the invariant holds in every state reachable from reset, for every platform base that is a multiple of 64, every
schedule of host accesses, core turns and resets, and whatever reset leaves in TABLE and the builder's registers, which the
spec leaves unspecified. (Beside the clauses of R41 the invariant has those the structure `Inv` adds.) -/
def Obligations.ReachableStatesMeetTheInvariant : Prop :=
  ∀ (base n : Nat) (turns : List Turn) (table : Vector Word 256) (bidx : Fin 257) (bcnt : Fin 9) (bacc : Word) (t : State),
    base % 64 = 0 →
    Sys2Proof.core.run n { State.reset with
      base := base, schedule := turns, table := table, bidx := BitVec.ofNat 9 bidx.val, bcnt := BitVec.ofNat 4 bcnt.val
      bacc := bacc } = .next t → Inv t

/-- What the spec leaves unspecified or hidden cannot be observed (10_state.md sections 3 and 4): of two states that meet the
invariant and differ at most in TABLE while TABLE_VALID = 0, in ACC while no session is open, in the builder's registers
and in the draws of free values, every run of the one is matched by a run of the other that returns the same values to
every read, and they again differ at most so. -/
def Obligations.UnspecifiedStateIsUnobservable : Prop :=
  ∀ (n : Nat) (s s' t : State), Inv s → Inv s' → SameVisible s s' → Sys2Proof.core.run n s = .next t →
    ∃ t', Sys2Proof.core.run n s' = .next t' ∧ SameVisible t t'
end

