-- ==== Sys2Proof/Laws/State.lean ====
section
/-! SUPPORT. One lemma per field per update of State, true by rfl: no later proof unfolds a record update. -/

namespace Sys2Proof.Machine

/-! ### `raise` -/

@[simp] theorem raise_base (e : InterfaceError) (s : State) : (raise e s).base = s.base := rfl
@[simp] theorem raise_tableValid (e : InterfaceError) (s : State) : (raise e s).tableValid = s.tableValid := rfl
@[simp] theorem raise_active (e : InterfaceError) (s : State) : (raise e s).active = s.active := rfl
@[simp] theorem raise_resultValid (e : InterfaceError) (s : State) : (raise e s).resultValid = s.resultValid := rfl
@[simp] theorem raise_errBusy (e : InterfaceError) (s : State) : (raise e s).errBusy = (s.errBusy || decide (e = .errBusy)) := rfl
@[simp] theorem raise_errBadcmd (e : InterfaceError) (s : State) : (raise e s).errBadcmd = (s.errBadcmd || decide (e = .errBadcmd)) := rfl
@[simp] theorem raise_errNotable (e : InterfaceError) (s : State) : (raise e s).errNotable = (s.errNotable || decide (e = .errNotable)) := rfl
@[simp] theorem raise_errSeq (e : InterfaceError) (s : State) : (raise e s).errSeq = (s.errSeq || decide (e = .errSeq)) := rfl
@[simp] theorem raise_data (e : InterfaceError) (s : State) : (raise e s).data = s.data := rfl
@[simp] theorem raise_result (e : InterfaceError) (s : State) : (raise e s).result = s.result := rfl
@[simp] theorem raise_tidx (e : InterfaceError) (s : State) : (raise e s).tidx = s.tidx := rfl
@[simp] theorem raise_acc (e : InterfaceError) (s : State) : (raise e s).acc = s.acc := rfl
@[simp] theorem raise_table (e : InterfaceError) (s : State) : (raise e s).table = s.table := rfl
@[simp] theorem raise_pending (e : InterfaceError) (s : State) : (raise e s).pending = s.pending := rfl
@[simp] theorem raise_bidx (e : InterfaceError) (s : State) : (raise e s).bidx = s.bidx := rfl
@[simp] theorem raise_bcnt (e : InterfaceError) (s : State) : (raise e s).bcnt = s.bcnt := rfl
@[simp] theorem raise_bacc (e : InterfaceError) (s : State) : (raise e s).bacc = s.bacc := rfl
@[simp] theorem raise_schedule (e : InterfaceError) (s : State) : (raise e s).schedule = s.schedule := rfl
@[simp] theorem raise_readLog (e : InterfaceError) (s : State) : (raise e s).readLog = s.readLog := rfl
@[simp] theorem raise_draws (e : InterfaceError) (s : State) : (raise e s).draws = s.draws := rfl

/-! ### `clearErrors` -/

@[simp] theorem clearErrors_base (v : Word) (s : State) : (clearErrors v s).base = s.base := rfl
@[simp] theorem clearErrors_tableValid (v : Word) (s : State) : (clearErrors v s).tableValid = s.tableValid := rfl
@[simp] theorem clearErrors_active (v : Word) (s : State) : (clearErrors v s).active = s.active := rfl
@[simp] theorem clearErrors_resultValid (v : Word) (s : State) : (clearErrors v s).resultValid = s.resultValid := rfl
@[simp] theorem clearErrors_errBusy (v : Word) (s : State) : (clearErrors v s).errBusy = (s.errBusy && !v.getLsbD 8) := rfl
@[simp] theorem clearErrors_errBadcmd (v : Word) (s : State) : (clearErrors v s).errBadcmd = (s.errBadcmd && !v.getLsbD 9) := rfl
@[simp] theorem clearErrors_errNotable (v : Word) (s : State) : (clearErrors v s).errNotable = (s.errNotable && !v.getLsbD 10) := rfl
@[simp] theorem clearErrors_errSeq (v : Word) (s : State) : (clearErrors v s).errSeq = (s.errSeq && !v.getLsbD 11) := rfl
@[simp] theorem clearErrors_data (v : Word) (s : State) : (clearErrors v s).data = s.data := rfl
@[simp] theorem clearErrors_result (v : Word) (s : State) : (clearErrors v s).result = s.result := rfl
@[simp] theorem clearErrors_tidx (v : Word) (s : State) : (clearErrors v s).tidx = s.tidx := rfl
@[simp] theorem clearErrors_acc (v : Word) (s : State) : (clearErrors v s).acc = s.acc := rfl
@[simp] theorem clearErrors_table (v : Word) (s : State) : (clearErrors v s).table = s.table := rfl
@[simp] theorem clearErrors_pending (v : Word) (s : State) : (clearErrors v s).pending = s.pending := rfl
@[simp] theorem clearErrors_bidx (v : Word) (s : State) : (clearErrors v s).bidx = s.bidx := rfl
@[simp] theorem clearErrors_bcnt (v : Word) (s : State) : (clearErrors v s).bcnt = s.bcnt := rfl
@[simp] theorem clearErrors_bacc (v : Word) (s : State) : (clearErrors v s).bacc = s.bacc := rfl
@[simp] theorem clearErrors_schedule (v : Word) (s : State) : (clearErrors v s).schedule = s.schedule := rfl
@[simp] theorem clearErrors_readLog (v : Word) (s : State) : (clearErrors v s).readLog = s.readLog := rfl
@[simp] theorem clearErrors_draws (v : Word) (s : State) : (clearErrors v s).draws = s.draws := rfl

/-! ### `latch` -/

@[simp] theorem latch_base (c : Command) (s : State) : (latch c s).base = s.base := rfl
@[simp] theorem latch_tableValid (c : Command) (s : State) : (latch c s).tableValid = s.tableValid := rfl
@[simp] theorem latch_active (c : Command) (s : State) : (latch c s).active = s.active := rfl
@[simp] theorem latch_resultValid (c : Command) (s : State) : (latch c s).resultValid = s.resultValid := rfl
@[simp] theorem latch_errBusy (c : Command) (s : State) : (latch c s).errBusy = s.errBusy := rfl
@[simp] theorem latch_errBadcmd (c : Command) (s : State) : (latch c s).errBadcmd = s.errBadcmd := rfl
@[simp] theorem latch_errNotable (c : Command) (s : State) : (latch c s).errNotable = s.errNotable := rfl
@[simp] theorem latch_errSeq (c : Command) (s : State) : (latch c s).errSeq = s.errSeq := rfl
@[simp] theorem latch_data (c : Command) (s : State) : (latch c s).data = s.data := rfl
@[simp] theorem latch_result (c : Command) (s : State) : (latch c s).result = s.result := rfl
@[simp] theorem latch_tidx (c : Command) (s : State) : (latch c s).tidx = s.tidx := rfl
@[simp] theorem latch_acc (c : Command) (s : State) : (latch c s).acc = s.acc := rfl
@[simp] theorem latch_table (c : Command) (s : State) : (latch c s).table = s.table := rfl
@[simp] theorem latch_pending (c : Command) (s : State) : (latch c s).pending = some c := rfl
@[simp] theorem latch_bidx (c : Command) (s : State) : (latch c s).bidx = s.bidx := rfl
@[simp] theorem latch_bcnt (c : Command) (s : State) : (latch c s).bcnt = s.bcnt := rfl
@[simp] theorem latch_bacc (c : Command) (s : State) : (latch c s).bacc = s.bacc := rfl
@[simp] theorem latch_schedule (c : Command) (s : State) : (latch c s).schedule = s.schedule := rfl
@[simp] theorem latch_readLog (c : Command) (s : State) : (latch c s).readLog = s.readLog := rfl
@[simp] theorem latch_draws (c : Command) (s : State) : (latch c s).draws = s.draws := rfl

/-! ### `tableWrite` -/

@[simp] theorem tableWrite_base (i : Byte) (v : Word) (s : State) : (tableWrite i v s).base = s.base := rfl
@[simp] theorem tableWrite_tableValid (i : Byte) (v : Word) (s : State) : (tableWrite i v s).tableValid = s.tableValid := rfl
@[simp] theorem tableWrite_active (i : Byte) (v : Word) (s : State) : (tableWrite i v s).active = s.active := rfl
@[simp] theorem tableWrite_resultValid (i : Byte) (v : Word) (s : State) : (tableWrite i v s).resultValid = s.resultValid := rfl
@[simp] theorem tableWrite_errBusy (i : Byte) (v : Word) (s : State) : (tableWrite i v s).errBusy = s.errBusy := rfl
@[simp] theorem tableWrite_errBadcmd (i : Byte) (v : Word) (s : State) : (tableWrite i v s).errBadcmd = s.errBadcmd := rfl
@[simp] theorem tableWrite_errNotable (i : Byte) (v : Word) (s : State) : (tableWrite i v s).errNotable = s.errNotable := rfl
@[simp] theorem tableWrite_errSeq (i : Byte) (v : Word) (s : State) : (tableWrite i v s).errSeq = s.errSeq := rfl
@[simp] theorem tableWrite_data (i : Byte) (v : Word) (s : State) : (tableWrite i v s).data = s.data := rfl
@[simp] theorem tableWrite_result (i : Byte) (v : Word) (s : State) : (tableWrite i v s).result = s.result := rfl
@[simp] theorem tableWrite_tidx (i : Byte) (v : Word) (s : State) : (tableWrite i v s).tidx = s.tidx := rfl
@[simp] theorem tableWrite_acc (i : Byte) (v : Word) (s : State) : (tableWrite i v s).acc = s.acc := rfl
@[simp] theorem tableWrite_table (i : Byte) (v : Word) (s : State) : (tableWrite i v s).table = s.table.set i.toNat v i.isLt := rfl
@[simp] theorem tableWrite_pending (i : Byte) (v : Word) (s : State) : (tableWrite i v s).pending = s.pending := rfl
@[simp] theorem tableWrite_bidx (i : Byte) (v : Word) (s : State) : (tableWrite i v s).bidx = s.bidx := rfl
@[simp] theorem tableWrite_bcnt (i : Byte) (v : Word) (s : State) : (tableWrite i v s).bcnt = s.bcnt := rfl
@[simp] theorem tableWrite_bacc (i : Byte) (v : Word) (s : State) : (tableWrite i v s).bacc = s.bacc := rfl
@[simp] theorem tableWrite_schedule (i : Byte) (v : Word) (s : State) : (tableWrite i v s).schedule = s.schedule := rfl
@[simp] theorem tableWrite_readLog (i : Byte) (v : Word) (s : State) : (tableWrite i v s).readLog = s.readLog := rfl
@[simp] theorem tableWrite_draws (i : Byte) (v : Word) (s : State) : (tableWrite i v s).draws = s.draws := rfl

/-! ### `writeData` -/

@[simp] theorem writeData_base (v : Word) (s : State) : (writeData v s).base = s.base := rfl
@[simp] theorem writeData_tableValid (v : Word) (s : State) : (writeData v s).tableValid = s.tableValid := rfl
@[simp] theorem writeData_active (v : Word) (s : State) : (writeData v s).active = s.active := rfl
@[simp] theorem writeData_resultValid (v : Word) (s : State) : (writeData v s).resultValid = s.resultValid := rfl
@[simp] theorem writeData_errBusy (v : Word) (s : State) : (writeData v s).errBusy = s.errBusy := rfl
@[simp] theorem writeData_errBadcmd (v : Word) (s : State) : (writeData v s).errBadcmd = s.errBadcmd := rfl
@[simp] theorem writeData_errNotable (v : Word) (s : State) : (writeData v s).errNotable = s.errNotable := rfl
@[simp] theorem writeData_errSeq (v : Word) (s : State) : (writeData v s).errSeq = s.errSeq := rfl
@[simp] theorem writeData_data (v : Word) (s : State) : (writeData v s).data = v := rfl
@[simp] theorem writeData_result (v : Word) (s : State) : (writeData v s).result = s.result := rfl
@[simp] theorem writeData_tidx (v : Word) (s : State) : (writeData v s).tidx = s.tidx := rfl
@[simp] theorem writeData_acc (v : Word) (s : State) : (writeData v s).acc = s.acc := rfl
@[simp] theorem writeData_table (v : Word) (s : State) : (writeData v s).table = s.table := rfl
@[simp] theorem writeData_pending (v : Word) (s : State) : (writeData v s).pending = s.pending := rfl
@[simp] theorem writeData_bidx (v : Word) (s : State) : (writeData v s).bidx = s.bidx := rfl
@[simp] theorem writeData_bcnt (v : Word) (s : State) : (writeData v s).bcnt = s.bcnt := rfl
@[simp] theorem writeData_bacc (v : Word) (s : State) : (writeData v s).bacc = s.bacc := rfl
@[simp] theorem writeData_schedule (v : Word) (s : State) : (writeData v s).schedule = s.schedule := rfl
@[simp] theorem writeData_readLog (v : Word) (s : State) : (writeData v s).readLog = s.readLog := rfl
@[simp] theorem writeData_draws (v : Word) (s : State) : (writeData v s).draws = s.draws := rfl

/-! ### `writeTidx` -/

@[simp] theorem writeTidx_base (v : Word) (s : State) : (writeTidx v s).base = s.base := rfl
@[simp] theorem writeTidx_tableValid (v : Word) (s : State) : (writeTidx v s).tableValid = s.tableValid := rfl
@[simp] theorem writeTidx_active (v : Word) (s : State) : (writeTidx v s).active = s.active := rfl
@[simp] theorem writeTidx_resultValid (v : Word) (s : State) : (writeTidx v s).resultValid = s.resultValid := rfl
@[simp] theorem writeTidx_errBusy (v : Word) (s : State) : (writeTidx v s).errBusy = s.errBusy := rfl
@[simp] theorem writeTidx_errBadcmd (v : Word) (s : State) : (writeTidx v s).errBadcmd = s.errBadcmd := rfl
@[simp] theorem writeTidx_errNotable (v : Word) (s : State) : (writeTidx v s).errNotable = s.errNotable := rfl
@[simp] theorem writeTidx_errSeq (v : Word) (s : State) : (writeTidx v s).errSeq = s.errSeq := rfl
@[simp] theorem writeTidx_data (v : Word) (s : State) : (writeTidx v s).data = s.data := rfl
@[simp] theorem writeTidx_result (v : Word) (s : State) : (writeTidx v s).result = s.result := rfl
@[simp] theorem writeTidx_tidx (v : Word) (s : State) : (writeTidx v s).tidx = byteOf v 0 := rfl
@[simp] theorem writeTidx_acc (v : Word) (s : State) : (writeTidx v s).acc = s.acc := rfl
@[simp] theorem writeTidx_table (v : Word) (s : State) : (writeTidx v s).table = s.table := rfl
@[simp] theorem writeTidx_pending (v : Word) (s : State) : (writeTidx v s).pending = s.pending := rfl
@[simp] theorem writeTidx_bidx (v : Word) (s : State) : (writeTidx v s).bidx = s.bidx := rfl
@[simp] theorem writeTidx_bcnt (v : Word) (s : State) : (writeTidx v s).bcnt = s.bcnt := rfl
@[simp] theorem writeTidx_bacc (v : Word) (s : State) : (writeTidx v s).bacc = s.bacc := rfl
@[simp] theorem writeTidx_schedule (v : Word) (s : State) : (writeTidx v s).schedule = s.schedule := rfl
@[simp] theorem writeTidx_readLog (v : Word) (s : State) : (writeTidx v s).readLog = s.readLog := rfl
@[simp] theorem writeTidx_draws (v : Word) (s : State) : (writeTidx v s).draws = s.draws := rfl

/-! ### `logRead` -/

@[simp] theorem logRead_base (v : Word) (s : State) : (logRead v s).base = s.base := rfl
@[simp] theorem logRead_tableValid (v : Word) (s : State) : (logRead v s).tableValid = s.tableValid := rfl
@[simp] theorem logRead_active (v : Word) (s : State) : (logRead v s).active = s.active := rfl
@[simp] theorem logRead_resultValid (v : Word) (s : State) : (logRead v s).resultValid = s.resultValid := rfl
@[simp] theorem logRead_errBusy (v : Word) (s : State) : (logRead v s).errBusy = s.errBusy := rfl
@[simp] theorem logRead_errBadcmd (v : Word) (s : State) : (logRead v s).errBadcmd = s.errBadcmd := rfl
@[simp] theorem logRead_errNotable (v : Word) (s : State) : (logRead v s).errNotable = s.errNotable := rfl
@[simp] theorem logRead_errSeq (v : Word) (s : State) : (logRead v s).errSeq = s.errSeq := rfl
@[simp] theorem logRead_data (v : Word) (s : State) : (logRead v s).data = s.data := rfl
@[simp] theorem logRead_result (v : Word) (s : State) : (logRead v s).result = s.result := rfl
@[simp] theorem logRead_tidx (v : Word) (s : State) : (logRead v s).tidx = s.tidx := rfl
@[simp] theorem logRead_acc (v : Word) (s : State) : (logRead v s).acc = s.acc := rfl
@[simp] theorem logRead_table (v : Word) (s : State) : (logRead v s).table = s.table := rfl
@[simp] theorem logRead_pending (v : Word) (s : State) : (logRead v s).pending = s.pending := rfl
@[simp] theorem logRead_bidx (v : Word) (s : State) : (logRead v s).bidx = s.bidx := rfl
@[simp] theorem logRead_bcnt (v : Word) (s : State) : (logRead v s).bcnt = s.bcnt := rfl
@[simp] theorem logRead_bacc (v : Word) (s : State) : (logRead v s).bacc = s.bacc := rfl
@[simp] theorem logRead_schedule (v : Word) (s : State) : (logRead v s).schedule = s.schedule := rfl
@[simp] theorem logRead_readLog (v : Word) (s : State) : (logRead v s).readLog = v :: s.readLog := rfl
@[simp] theorem logRead_draws (v : Word) (s : State) : (logRead v s).draws = s.draws := rfl

/-! ### `setSchedule` -/

@[simp] theorem setSchedule_base (ts : List Turn) (s : State) : (setSchedule ts s).base = s.base := rfl
@[simp] theorem setSchedule_tableValid (ts : List Turn) (s : State) : (setSchedule ts s).tableValid = s.tableValid := rfl
@[simp] theorem setSchedule_active (ts : List Turn) (s : State) : (setSchedule ts s).active = s.active := rfl
@[simp] theorem setSchedule_resultValid (ts : List Turn) (s : State) : (setSchedule ts s).resultValid = s.resultValid := rfl
@[simp] theorem setSchedule_errBusy (ts : List Turn) (s : State) : (setSchedule ts s).errBusy = s.errBusy := rfl
@[simp] theorem setSchedule_errBadcmd (ts : List Turn) (s : State) : (setSchedule ts s).errBadcmd = s.errBadcmd := rfl
@[simp] theorem setSchedule_errNotable (ts : List Turn) (s : State) : (setSchedule ts s).errNotable = s.errNotable := rfl
@[simp] theorem setSchedule_errSeq (ts : List Turn) (s : State) : (setSchedule ts s).errSeq = s.errSeq := rfl
@[simp] theorem setSchedule_data (ts : List Turn) (s : State) : (setSchedule ts s).data = s.data := rfl
@[simp] theorem setSchedule_result (ts : List Turn) (s : State) : (setSchedule ts s).result = s.result := rfl
@[simp] theorem setSchedule_tidx (ts : List Turn) (s : State) : (setSchedule ts s).tidx = s.tidx := rfl
@[simp] theorem setSchedule_acc (ts : List Turn) (s : State) : (setSchedule ts s).acc = s.acc := rfl
@[simp] theorem setSchedule_table (ts : List Turn) (s : State) : (setSchedule ts s).table = s.table := rfl
@[simp] theorem setSchedule_pending (ts : List Turn) (s : State) : (setSchedule ts s).pending = s.pending := rfl
@[simp] theorem setSchedule_bidx (ts : List Turn) (s : State) : (setSchedule ts s).bidx = s.bidx := rfl
@[simp] theorem setSchedule_bcnt (ts : List Turn) (s : State) : (setSchedule ts s).bcnt = s.bcnt := rfl
@[simp] theorem setSchedule_bacc (ts : List Turn) (s : State) : (setSchedule ts s).bacc = s.bacc := rfl
@[simp] theorem setSchedule_schedule (ts : List Turn) (s : State) : (setSchedule ts s).schedule = ts := rfl
@[simp] theorem setSchedule_readLog (ts : List Turn) (s : State) : (setSchedule ts s).readLog = s.readLog := rfl
@[simp] theorem setSchedule_draws (ts : List Turn) (s : State) : (setSchedule ts s).draws = s.draws := rfl

/-! ### `freeBuilder` -/

@[simp] theorem freeBuilder_base (s : State) : (freeBuilder s).base = s.base := rfl
@[simp] theorem freeBuilder_tableValid (s : State) : (freeBuilder s).tableValid = s.tableValid := rfl
@[simp] theorem freeBuilder_active (s : State) : (freeBuilder s).active = s.active := rfl
@[simp] theorem freeBuilder_resultValid (s : State) : (freeBuilder s).resultValid = s.resultValid := rfl
@[simp] theorem freeBuilder_errBusy (s : State) : (freeBuilder s).errBusy = s.errBusy := rfl
@[simp] theorem freeBuilder_errBadcmd (s : State) : (freeBuilder s).errBadcmd = s.errBadcmd := rfl
@[simp] theorem freeBuilder_errNotable (s : State) : (freeBuilder s).errNotable = s.errNotable := rfl
@[simp] theorem freeBuilder_errSeq (s : State) : (freeBuilder s).errSeq = s.errSeq := rfl
@[simp] theorem freeBuilder_data (s : State) : (freeBuilder s).data = s.data := rfl
@[simp] theorem freeBuilder_result (s : State) : (freeBuilder s).result = s.result := rfl
@[simp] theorem freeBuilder_tidx (s : State) : (freeBuilder s).tidx = s.tidx := rfl
@[simp] theorem freeBuilder_acc (s : State) : (freeBuilder s).acc = s.acc := rfl
@[simp] theorem freeBuilder_table (s : State) : (freeBuilder s).table = s.table := rfl
@[simp] theorem freeBuilder_pending (s : State) : (freeBuilder s).pending = s.pending := rfl
@[simp] theorem freeBuilder_bidx (s : State) : (freeBuilder s).bidx = BitVec.ofNat 9 (Config.freeBidx s.draws).val := rfl
@[simp] theorem freeBuilder_bcnt (s : State) : (freeBuilder s).bcnt = BitVec.ofNat 4 (Config.freeBcnt s.draws).val := rfl
@[simp] theorem freeBuilder_bacc (s : State) : (freeBuilder s).bacc = Config.freeBacc s.draws := rfl
@[simp] theorem freeBuilder_schedule (s : State) : (freeBuilder s).schedule = s.schedule := rfl
@[simp] theorem freeBuilder_readLog (s : State) : (freeBuilder s).readLog = s.readLog := rfl
@[simp] theorem freeBuilder_draws (s : State) : (freeBuilder s).draws = s.draws + 1 := rfl

/-! ### `freeTable` -/

@[simp] theorem freeTable_base (s : State) : (freeTable s).base = s.base := rfl
@[simp] theorem freeTable_tableValid (s : State) : (freeTable s).tableValid = s.tableValid := rfl
@[simp] theorem freeTable_active (s : State) : (freeTable s).active = s.active := rfl
@[simp] theorem freeTable_resultValid (s : State) : (freeTable s).resultValid = s.resultValid := rfl
@[simp] theorem freeTable_errBusy (s : State) : (freeTable s).errBusy = s.errBusy := rfl
@[simp] theorem freeTable_errBadcmd (s : State) : (freeTable s).errBadcmd = s.errBadcmd := rfl
@[simp] theorem freeTable_errNotable (s : State) : (freeTable s).errNotable = s.errNotable := rfl
@[simp] theorem freeTable_errSeq (s : State) : (freeTable s).errSeq = s.errSeq := rfl
@[simp] theorem freeTable_data (s : State) : (freeTable s).data = s.data := rfl
@[simp] theorem freeTable_result (s : State) : (freeTable s).result = s.result := rfl
@[simp] theorem freeTable_tidx (s : State) : (freeTable s).tidx = s.tidx := rfl
@[simp] theorem freeTable_acc (s : State) : (freeTable s).acc = s.acc := rfl
@[simp] theorem freeTable_table (s : State) : (freeTable s).table = Config.freeContents s.draws := rfl
@[simp] theorem freeTable_pending (s : State) : (freeTable s).pending = s.pending := rfl
@[simp] theorem freeTable_bidx (s : State) : (freeTable s).bidx = s.bidx := rfl
@[simp] theorem freeTable_bcnt (s : State) : (freeTable s).bcnt = s.bcnt := rfl
@[simp] theorem freeTable_bacc (s : State) : (freeTable s).bacc = s.bacc := rfl
@[simp] theorem freeTable_schedule (s : State) : (freeTable s).schedule = s.schedule := rfl
@[simp] theorem freeTable_readLog (s : State) : (freeTable s).readLog = s.readLog := rfl
@[simp] theorem freeTable_draws (s : State) : (freeTable s).draws = s.draws + 1 := rfl

/-! ### `completeInit` -/

@[simp] theorem completeInit_base (s : State) : (completeInit s).base = s.base := rfl
@[simp] theorem completeInit_tableValid (s : State) : (completeInit s).tableValid = s.tableValid := rfl
@[simp] theorem completeInit_active (s : State) : (completeInit s).active = true := rfl
@[simp] theorem completeInit_resultValid (s : State) : (completeInit s).resultValid = s.resultValid := rfl
@[simp] theorem completeInit_errBusy (s : State) : (completeInit s).errBusy = s.errBusy := rfl
@[simp] theorem completeInit_errBadcmd (s : State) : (completeInit s).errBadcmd = s.errBadcmd := rfl
@[simp] theorem completeInit_errNotable (s : State) : (completeInit s).errNotable = s.errNotable := rfl
@[simp] theorem completeInit_errSeq (s : State) : (completeInit s).errSeq = s.errSeq := rfl
@[simp] theorem completeInit_data (s : State) : (completeInit s).data = s.data := rfl
@[simp] theorem completeInit_result (s : State) : (completeInit s).result = s.result := rfl
@[simp] theorem completeInit_tidx (s : State) : (completeInit s).tidx = s.tidx := rfl
@[simp] theorem completeInit_acc (s : State) : (completeInit s).acc = crcInit := rfl
@[simp] theorem completeInit_table (s : State) : (completeInit s).table = s.table := rfl
@[simp] theorem completeInit_pending (s : State) : (completeInit s).pending = none := rfl
@[simp] theorem completeInit_bidx (s : State) : (completeInit s).bidx = s.bidx := rfl
@[simp] theorem completeInit_bcnt (s : State) : (completeInit s).bcnt = s.bcnt := rfl
@[simp] theorem completeInit_bacc (s : State) : (completeInit s).bacc = s.bacc := rfl
@[simp] theorem completeInit_schedule (s : State) : (completeInit s).schedule = s.schedule := rfl
@[simp] theorem completeInit_readLog (s : State) : (completeInit s).readLog = s.readLog := rfl
@[simp] theorem completeInit_draws (s : State) : (completeInit s).draws = s.draws := rfl

/-! ### `completeFold8` -/

@[simp] theorem completeFold8_base (b : Byte) (s : State) : (completeFold8 b s).base = s.base := rfl
@[simp] theorem completeFold8_tableValid (b : Byte) (s : State) : (completeFold8 b s).tableValid = s.tableValid := rfl
@[simp] theorem completeFold8_active (b : Byte) (s : State) : (completeFold8 b s).active = s.active := rfl
@[simp] theorem completeFold8_resultValid (b : Byte) (s : State) : (completeFold8 b s).resultValid = s.resultValid := rfl
@[simp] theorem completeFold8_errBusy (b : Byte) (s : State) : (completeFold8 b s).errBusy = s.errBusy := rfl
@[simp] theorem completeFold8_errBadcmd (b : Byte) (s : State) : (completeFold8 b s).errBadcmd = s.errBadcmd := rfl
@[simp] theorem completeFold8_errNotable (b : Byte) (s : State) : (completeFold8 b s).errNotable = s.errNotable := rfl
@[simp] theorem completeFold8_errSeq (b : Byte) (s : State) : (completeFold8 b s).errSeq = s.errSeq := rfl
@[simp] theorem completeFold8_data (b : Byte) (s : State) : (completeFold8 b s).data = s.data := rfl
@[simp] theorem completeFold8_result (b : Byte) (s : State) : (completeFold8 b s).result = s.result := rfl
@[simp] theorem completeFold8_tidx (b : Byte) (s : State) : (completeFold8 b s).tidx = s.tidx := rfl
@[simp] theorem completeFold8_acc (b : Byte) (s : State) : (completeFold8 b s).acc = foldStep s s.acc b := rfl
@[simp] theorem completeFold8_table (b : Byte) (s : State) : (completeFold8 b s).table = s.table := rfl
@[simp] theorem completeFold8_pending (b : Byte) (s : State) : (completeFold8 b s).pending = none := rfl
@[simp] theorem completeFold8_bidx (b : Byte) (s : State) : (completeFold8 b s).bidx = s.bidx := rfl
@[simp] theorem completeFold8_bcnt (b : Byte) (s : State) : (completeFold8 b s).bcnt = s.bcnt := rfl
@[simp] theorem completeFold8_bacc (b : Byte) (s : State) : (completeFold8 b s).bacc = s.bacc := rfl
@[simp] theorem completeFold8_schedule (b : Byte) (s : State) : (completeFold8 b s).schedule = s.schedule := rfl
@[simp] theorem completeFold8_readLog (b : Byte) (s : State) : (completeFold8 b s).readLog = s.readLog := rfl
@[simp] theorem completeFold8_draws (b : Byte) (s : State) : (completeFold8 b s).draws = s.draws := rfl

/-! ### `completeFoldw` -/

@[simp] theorem completeFoldw_base (w : Word) (s : State) : (completeFoldw w s).base = s.base := rfl
@[simp] theorem completeFoldw_tableValid (w : Word) (s : State) : (completeFoldw w s).tableValid = s.tableValid := rfl
@[simp] theorem completeFoldw_active (w : Word) (s : State) : (completeFoldw w s).active = s.active := rfl
@[simp] theorem completeFoldw_resultValid (w : Word) (s : State) : (completeFoldw w s).resultValid = s.resultValid := rfl
@[simp] theorem completeFoldw_errBusy (w : Word) (s : State) : (completeFoldw w s).errBusy = s.errBusy := rfl
@[simp] theorem completeFoldw_errBadcmd (w : Word) (s : State) : (completeFoldw w s).errBadcmd = s.errBadcmd := rfl
@[simp] theorem completeFoldw_errNotable (w : Word) (s : State) : (completeFoldw w s).errNotable = s.errNotable := rfl
@[simp] theorem completeFoldw_errSeq (w : Word) (s : State) : (completeFoldw w s).errSeq = s.errSeq := rfl
@[simp] theorem completeFoldw_data (w : Word) (s : State) : (completeFoldw w s).data = s.data := rfl
@[simp] theorem completeFoldw_result (w : Word) (s : State) : (completeFoldw w s).result = s.result := rfl
@[simp] theorem completeFoldw_tidx (w : Word) (s : State) : (completeFoldw w s).tidx = s.tidx := rfl
@[simp] theorem completeFoldw_acc (w : Word) (s : State) : (completeFoldw w s).acc = foldWord s s.acc w := rfl
@[simp] theorem completeFoldw_table (w : Word) (s : State) : (completeFoldw w s).table = s.table := rfl
@[simp] theorem completeFoldw_pending (w : Word) (s : State) : (completeFoldw w s).pending = none := rfl
@[simp] theorem completeFoldw_bidx (w : Word) (s : State) : (completeFoldw w s).bidx = s.bidx := rfl
@[simp] theorem completeFoldw_bcnt (w : Word) (s : State) : (completeFoldw w s).bcnt = s.bcnt := rfl
@[simp] theorem completeFoldw_bacc (w : Word) (s : State) : (completeFoldw w s).bacc = s.bacc := rfl
@[simp] theorem completeFoldw_schedule (w : Word) (s : State) : (completeFoldw w s).schedule = s.schedule := rfl
@[simp] theorem completeFoldw_readLog (w : Word) (s : State) : (completeFoldw w s).readLog = s.readLog := rfl
@[simp] theorem completeFoldw_draws (w : Word) (s : State) : (completeFoldw w s).draws = s.draws := rfl

/-! ### `completeFinal` -/

@[simp] theorem completeFinal_base (s : State) : (completeFinal s).base = s.base := rfl
@[simp] theorem completeFinal_tableValid (s : State) : (completeFinal s).tableValid = s.tableValid := rfl
@[simp] theorem completeFinal_active (s : State) : (completeFinal s).active = false := rfl
@[simp] theorem completeFinal_resultValid (s : State) : (completeFinal s).resultValid = true := rfl
@[simp] theorem completeFinal_errBusy (s : State) : (completeFinal s).errBusy = s.errBusy := rfl
@[simp] theorem completeFinal_errBadcmd (s : State) : (completeFinal s).errBadcmd = s.errBadcmd := rfl
@[simp] theorem completeFinal_errNotable (s : State) : (completeFinal s).errNotable = s.errNotable := rfl
@[simp] theorem completeFinal_errSeq (s : State) : (completeFinal s).errSeq = s.errSeq := rfl
@[simp] theorem completeFinal_data (s : State) : (completeFinal s).data = s.data := rfl
@[simp] theorem completeFinal_result (s : State) : (completeFinal s).result = ~~~s.acc := rfl
@[simp] theorem completeFinal_tidx (s : State) : (completeFinal s).tidx = s.tidx := rfl
@[simp] theorem completeFinal_acc (s : State) : (completeFinal s).acc = s.acc := rfl
@[simp] theorem completeFinal_table (s : State) : (completeFinal s).table = s.table := rfl
@[simp] theorem completeFinal_pending (s : State) : (completeFinal s).pending = none := rfl
@[simp] theorem completeFinal_bidx (s : State) : (completeFinal s).bidx = s.bidx := rfl
@[simp] theorem completeFinal_bcnt (s : State) : (completeFinal s).bcnt = s.bcnt := rfl
@[simp] theorem completeFinal_bacc (s : State) : (completeFinal s).bacc = s.bacc := rfl
@[simp] theorem completeFinal_schedule (s : State) : (completeFinal s).schedule = s.schedule := rfl
@[simp] theorem completeFinal_readLog (s : State) : (completeFinal s).readLog = s.readLog := rfl
@[simp] theorem completeFinal_draws (s : State) : (completeFinal s).draws = s.draws := rfl

/-! ### `builderReflect` -/

@[simp] theorem builderReflect_base (s : State) : (builderReflect s).base = s.base := rfl
@[simp] theorem builderReflect_tableValid (s : State) : (builderReflect s).tableValid = s.tableValid := rfl
@[simp] theorem builderReflect_active (s : State) : (builderReflect s).active = s.active := rfl
@[simp] theorem builderReflect_resultValid (s : State) : (builderReflect s).resultValid = s.resultValid := rfl
@[simp] theorem builderReflect_errBusy (s : State) : (builderReflect s).errBusy = s.errBusy := rfl
@[simp] theorem builderReflect_errBadcmd (s : State) : (builderReflect s).errBadcmd = s.errBadcmd := rfl
@[simp] theorem builderReflect_errNotable (s : State) : (builderReflect s).errNotable = s.errNotable := rfl
@[simp] theorem builderReflect_errSeq (s : State) : (builderReflect s).errSeq = s.errSeq := rfl
@[simp] theorem builderReflect_data (s : State) : (builderReflect s).data = s.data := rfl
@[simp] theorem builderReflect_result (s : State) : (builderReflect s).result = s.result := rfl
@[simp] theorem builderReflect_tidx (s : State) : (builderReflect s).tidx = s.tidx := rfl
@[simp] theorem builderReflect_acc (s : State) : (builderReflect s).acc = s.acc := rfl
@[simp] theorem builderReflect_table (s : State) : (builderReflect s).table = s.table := rfl
@[simp] theorem builderReflect_pending (s : State) : (builderReflect s).pending = s.pending := rfl
@[simp] theorem builderReflect_bidx (s : State) : (builderReflect s).bidx = s.bidx := rfl
@[simp] theorem builderReflect_bcnt (s : State) : (builderReflect s).bcnt = s.bcnt + 1#4 := rfl
@[simp] theorem builderReflect_bacc (s : State) : (builderReflect s).bacc = reflStep s.bacc := rfl
@[simp] theorem builderReflect_schedule (s : State) : (builderReflect s).schedule = s.schedule := rfl
@[simp] theorem builderReflect_readLog (s : State) : (builderReflect s).readLog = s.readLog := rfl
@[simp] theorem builderReflect_draws (s : State) : (builderReflect s).draws = s.draws := rfl

/-! ### `builderStart` -/

@[simp] theorem builderStart_base (s : State) : (builderStart s).base = s.base := rfl
@[simp] theorem builderStart_tableValid (s : State) : (builderStart s).tableValid = s.tableValid := rfl
@[simp] theorem builderStart_active (s : State) : (builderStart s).active = s.active := rfl
@[simp] theorem builderStart_resultValid (s : State) : (builderStart s).resultValid = s.resultValid := rfl
@[simp] theorem builderStart_errBusy (s : State) : (builderStart s).errBusy = s.errBusy := rfl
@[simp] theorem builderStart_errBadcmd (s : State) : (builderStart s).errBadcmd = s.errBadcmd := rfl
@[simp] theorem builderStart_errNotable (s : State) : (builderStart s).errNotable = s.errNotable := rfl
@[simp] theorem builderStart_errSeq (s : State) : (builderStart s).errSeq = s.errSeq := rfl
@[simp] theorem builderStart_data (s : State) : (builderStart s).data = s.data := rfl
@[simp] theorem builderStart_result (s : State) : (builderStart s).result = s.result := rfl
@[simp] theorem builderStart_tidx (s : State) : (builderStart s).tidx = s.tidx := rfl
@[simp] theorem builderStart_acc (s : State) : (builderStart s).acc = s.acc := rfl
@[simp] theorem builderStart_table (s : State) : (builderStart s).table = s.table := rfl
@[simp] theorem builderStart_pending (s : State) : (builderStart s).pending = s.pending := rfl
@[simp] theorem builderStart_bidx (s : State) : (builderStart s).bidx = s.bidx := rfl
@[simp] theorem builderStart_bcnt (s : State) : (builderStart s).bcnt = 0#4 := rfl
@[simp] theorem builderStart_bacc (s : State) : (builderStart s).bacc = zextByte (builderIndex s) := rfl
@[simp] theorem builderStart_schedule (s : State) : (builderStart s).schedule = s.schedule := rfl
@[simp] theorem builderStart_readLog (s : State) : (builderStart s).readLog = s.readLog := rfl
@[simp] theorem builderStart_draws (s : State) : (builderStart s).draws = s.draws := rfl

/-! ### `builderStore` -/

@[simp] theorem builderStore_base (s : State) : (builderStore s).base = s.base := rfl
@[simp] theorem builderStore_tableValid (s : State) : (builderStore s).tableValid = s.tableValid := rfl
@[simp] theorem builderStore_active (s : State) : (builderStore s).active = s.active := rfl
@[simp] theorem builderStore_resultValid (s : State) : (builderStore s).resultValid = s.resultValid := rfl
@[simp] theorem builderStore_errBusy (s : State) : (builderStore s).errBusy = s.errBusy := rfl
@[simp] theorem builderStore_errBadcmd (s : State) : (builderStore s).errBadcmd = s.errBadcmd := rfl
@[simp] theorem builderStore_errNotable (s : State) : (builderStore s).errNotable = s.errNotable := rfl
@[simp] theorem builderStore_errSeq (s : State) : (builderStore s).errSeq = s.errSeq := rfl
@[simp] theorem builderStore_data (s : State) : (builderStore s).data = s.data := rfl
@[simp] theorem builderStore_result (s : State) : (builderStore s).result = s.result := rfl
@[simp] theorem builderStore_tidx (s : State) : (builderStore s).tidx = s.tidx := rfl
@[simp] theorem builderStore_acc (s : State) : (builderStore s).acc = s.acc := rfl
@[simp] theorem builderStore_table (s : State) : (builderStore s).table = s.table.set (builderIndex s).toNat s.bacc (builderIndex s).isLt := rfl
@[simp] theorem builderStore_pending (s : State) : (builderStore s).pending = s.pending := rfl
@[simp] theorem builderStore_bidx (s : State) : (builderStore s).bidx = s.bidx + 1#9 := rfl
@[simp] theorem builderStore_bcnt (s : State) : (builderStore s).bcnt = s.bcnt := rfl
@[simp] theorem builderStore_bacc (s : State) : (builderStore s).bacc = s.bacc := rfl
@[simp] theorem builderStore_schedule (s : State) : (builderStore s).schedule = s.schedule := rfl
@[simp] theorem builderStore_readLog (s : State) : (builderStore s).readLog = s.readLog := rfl
@[simp] theorem builderStore_draws (s : State) : (builderStore s).draws = s.draws := rfl

/-! ### `finishBuild` -/

@[simp] theorem finishBuild_base (s : State) : (finishBuild s).base = s.base := rfl
@[simp] theorem finishBuild_tableValid (s : State) : (finishBuild s).tableValid = true := rfl
@[simp] theorem finishBuild_active (s : State) : (finishBuild s).active = s.active := rfl
@[simp] theorem finishBuild_resultValid (s : State) : (finishBuild s).resultValid = s.resultValid := rfl
@[simp] theorem finishBuild_errBusy (s : State) : (finishBuild s).errBusy = s.errBusy := rfl
@[simp] theorem finishBuild_errBadcmd (s : State) : (finishBuild s).errBadcmd = s.errBadcmd := rfl
@[simp] theorem finishBuild_errNotable (s : State) : (finishBuild s).errNotable = s.errNotable := rfl
@[simp] theorem finishBuild_errSeq (s : State) : (finishBuild s).errSeq = s.errSeq := rfl
@[simp] theorem finishBuild_data (s : State) : (finishBuild s).data = s.data := rfl
@[simp] theorem finishBuild_result (s : State) : (finishBuild s).result = s.result := rfl
@[simp] theorem finishBuild_tidx (s : State) : (finishBuild s).tidx = s.tidx := rfl
@[simp] theorem finishBuild_acc (s : State) : (finishBuild s).acc = s.acc := rfl
@[simp] theorem finishBuild_table (s : State) : (finishBuild s).table = s.table := rfl
@[simp] theorem finishBuild_pending (s : State) : (finishBuild s).pending = none := rfl
@[simp] theorem finishBuild_bidx (s : State) : (finishBuild s).bidx = BitVec.ofNat 9 (Config.freeBidx s.draws).val := rfl
@[simp] theorem finishBuild_bcnt (s : State) : (finishBuild s).bcnt = BitVec.ofNat 4 (Config.freeBcnt s.draws).val := rfl
@[simp] theorem finishBuild_bacc (s : State) : (finishBuild s).bacc = Config.freeBacc s.draws := rfl
@[simp] theorem finishBuild_schedule (s : State) : (finishBuild s).schedule = s.schedule := rfl
@[simp] theorem finishBuild_readLog (s : State) : (finishBuild s).readLog = s.readLog := rfl
@[simp] theorem finishBuild_draws (s : State) : (finishBuild s).draws = s.draws + 1 := rfl

/-! ### `completeBuild` -/

@[simp] theorem completeBuild_base (s : State) : (completeBuild s).base = s.base := rfl
@[simp] theorem completeBuild_tableValid (s : State) : (completeBuild s).tableValid = true := rfl
@[simp] theorem completeBuild_active (s : State) : (completeBuild s).active = s.active := rfl
@[simp] theorem completeBuild_resultValid (s : State) : (completeBuild s).resultValid = s.resultValid := rfl
@[simp] theorem completeBuild_errBusy (s : State) : (completeBuild s).errBusy = s.errBusy := rfl
@[simp] theorem completeBuild_errBadcmd (s : State) : (completeBuild s).errBadcmd = s.errBadcmd := rfl
@[simp] theorem completeBuild_errNotable (s : State) : (completeBuild s).errNotable = s.errNotable := rfl
@[simp] theorem completeBuild_errSeq (s : State) : (completeBuild s).errSeq = s.errSeq := rfl
@[simp] theorem completeBuild_data (s : State) : (completeBuild s).data = s.data := rfl
@[simp] theorem completeBuild_result (s : State) : (completeBuild s).result = s.result := rfl
@[simp] theorem completeBuild_tidx (s : State) : (completeBuild s).tidx = s.tidx := rfl
@[simp] theorem completeBuild_acc (s : State) : (completeBuild s).acc = s.acc := rfl
@[simp] theorem completeBuild_table (s : State) : (completeBuild s).table = crcTable := rfl
@[simp] theorem completeBuild_pending (s : State) : (completeBuild s).pending = none := rfl
@[simp] theorem completeBuild_bidx (s : State) : (completeBuild s).bidx = BitVec.ofNat 9 (Config.freeBidx s.draws).val := rfl
@[simp] theorem completeBuild_bcnt (s : State) : (completeBuild s).bcnt = BitVec.ofNat 4 (Config.freeBcnt s.draws).val := rfl
@[simp] theorem completeBuild_bacc (s : State) : (completeBuild s).bacc = Config.freeBacc s.draws := rfl
@[simp] theorem completeBuild_schedule (s : State) : (completeBuild s).schedule = s.schedule := rfl
@[simp] theorem completeBuild_readLog (s : State) : (completeBuild s).readLog = s.readLog := rfl
@[simp] theorem completeBuild_draws (s : State) : (completeBuild s).draws = s.draws + 1 := rfl

/-! ### `resetBlock` -/

@[simp] theorem resetBlock_base (s : State) : (resetBlock s).base = s.base := rfl
@[simp] theorem resetBlock_tableValid (s : State) : (resetBlock s).tableValid = false := rfl
@[simp] theorem resetBlock_active (s : State) : (resetBlock s).active = false := rfl
@[simp] theorem resetBlock_resultValid (s : State) : (resetBlock s).resultValid = false := rfl
@[simp] theorem resetBlock_errBusy (s : State) : (resetBlock s).errBusy = false := rfl
@[simp] theorem resetBlock_errBadcmd (s : State) : (resetBlock s).errBadcmd = false := rfl
@[simp] theorem resetBlock_errNotable (s : State) : (resetBlock s).errNotable = false := rfl
@[simp] theorem resetBlock_errSeq (s : State) : (resetBlock s).errSeq = false := rfl
@[simp] theorem resetBlock_data (s : State) : (resetBlock s).data = 0#32 := rfl
@[simp] theorem resetBlock_result (s : State) : (resetBlock s).result = 0#32 := rfl
@[simp] theorem resetBlock_tidx (s : State) : (resetBlock s).tidx = 0#8 := rfl
@[simp] theorem resetBlock_acc (s : State) : (resetBlock s).acc = 0#32 := rfl
@[simp] theorem resetBlock_table (s : State) : (resetBlock s).table = Config.freeContents (s.draws + 1) := rfl
@[simp] theorem resetBlock_pending (s : State) : (resetBlock s).pending = none := rfl
@[simp] theorem resetBlock_bidx (s : State) : (resetBlock s).bidx = BitVec.ofNat 9 (Config.freeBidx s.draws).val := rfl
@[simp] theorem resetBlock_bcnt (s : State) : (resetBlock s).bcnt = BitVec.ofNat 4 (Config.freeBcnt s.draws).val := rfl
@[simp] theorem resetBlock_bacc (s : State) : (resetBlock s).bacc = Config.freeBacc s.draws := rfl
@[simp] theorem resetBlock_schedule (s : State) : (resetBlock s).schedule = s.schedule := rfl
@[simp] theorem resetBlock_readLog (s : State) : (resetBlock s).readLog = s.readLog := rfl
@[simp] theorem resetBlock_draws (s : State) : (resetBlock s).draws = s.draws + 2 := rfl

end Sys2Proof.Machine
end

