-- ==== Sys2Proof/Laws/Builder.lean ====
section
/-! SUPPORT. What the builder's loops can change: TABLE and the working registers, nothing else (40_table_builder.md R103).
The loops are never run by unfolding: their frame is proved once, by induction on the bound, and each field has its own
lemma. -/

namespace Sys2Proof.Machine

/-- `t` differs from `s` at most in TABLE and in BIDX, BCNT and BACC. -/
def BuilderFrame (s t : State) : Prop :=
  t = { s with table := t.table, bidx := t.bidx, bcnt := t.bcnt, bacc := t.bacc }

theorem BuilderFrame.rfl (s : State) : BuilderFrame s s := Eq.refl s

theorem BuilderFrame.trans {s t u : State} (h : BuilderFrame s t) (h' : BuilderFrame t u) : BuilderFrame s u := by
  unfold BuilderFrame at *
  rw [h'] at *
  rw [h]

theorem BuilderFrame.base_eq {s t : State} (h : BuilderFrame s t) : t.base = s.base := by
  have e := congrArg State.base h
  exact e

theorem BuilderFrame.tableValid_eq {s t : State} (h : BuilderFrame s t) : t.tableValid = s.tableValid := by
  have e := congrArg State.tableValid h
  exact e

theorem BuilderFrame.active_eq {s t : State} (h : BuilderFrame s t) : t.active = s.active := by
  have e := congrArg State.active h
  exact e

theorem BuilderFrame.resultValid_eq {s t : State} (h : BuilderFrame s t) : t.resultValid = s.resultValid := by
  have e := congrArg State.resultValid h
  exact e

theorem BuilderFrame.errBusy_eq {s t : State} (h : BuilderFrame s t) : t.errBusy = s.errBusy := by
  have e := congrArg State.errBusy h
  exact e

theorem BuilderFrame.errBadcmd_eq {s t : State} (h : BuilderFrame s t) : t.errBadcmd = s.errBadcmd := by
  have e := congrArg State.errBadcmd h
  exact e

theorem BuilderFrame.errNotable_eq {s t : State} (h : BuilderFrame s t) : t.errNotable = s.errNotable := by
  have e := congrArg State.errNotable h
  exact e

theorem BuilderFrame.errSeq_eq {s t : State} (h : BuilderFrame s t) : t.errSeq = s.errSeq := by
  have e := congrArg State.errSeq h
  exact e

theorem BuilderFrame.data_eq {s t : State} (h : BuilderFrame s t) : t.data = s.data := by
  have e := congrArg State.data h
  exact e

theorem BuilderFrame.result_eq {s t : State} (h : BuilderFrame s t) : t.result = s.result := by
  have e := congrArg State.result h
  exact e

theorem BuilderFrame.tidx_eq {s t : State} (h : BuilderFrame s t) : t.tidx = s.tidx := by
  have e := congrArg State.tidx h
  exact e

theorem BuilderFrame.acc_eq {s t : State} (h : BuilderFrame s t) : t.acc = s.acc := by
  have e := congrArg State.acc h
  exact e

theorem BuilderFrame.pending_eq {s t : State} (h : BuilderFrame s t) : t.pending = s.pending := by
  have e := congrArg State.pending h
  exact e

theorem BuilderFrame.schedule_eq {s t : State} (h : BuilderFrame s t) : t.schedule = s.schedule := by
  have e := congrArg State.schedule h
  exact e

theorem BuilderFrame.readLog_eq {s t : State} (h : BuilderFrame s t) : t.readLog = s.readLog := by
  have e := congrArg State.readLog h
  exact e

theorem BuilderFrame.draws_eq {s t : State} (h : BuilderFrame s t) : t.draws = s.draws := by
  have e := congrArg State.draws h
  exact e

theorem builderInner_frame (n : Nat) : ∀ s : State, BuilderFrame s (builderInner n s) := by
  induction n with
  | zero => exact BuilderFrame.rfl
  | succ n ih =>
    intro s
    unfold builderInner
    split
    · exact BuilderFrame.trans (show BuilderFrame s (builderReflect s) from Eq.refl _) (ih _)
    · exact BuilderFrame.rfl s

theorem builderEntry_frame (s : State) : BuilderFrame s (builderEntry s) := by
  have h1 : BuilderFrame s (builderStart s) := Eq.refl _
  have h2 := builderInner_frame 8 (builderStart s)
  have h3 : BuilderFrame (builderInner 8 (builderStart s)) (builderStore (builderInner 8 (builderStart s))) := by
    generalize builderInner 8 (builderStart s) = u
    exact Eq.refl _
  exact (h1.trans h2).trans h3

theorem builderOuter_frame (n : Nat) : ∀ s : State, BuilderFrame s (builderOuter n s) := by
  induction n with
  | zero => exact BuilderFrame.rfl
  | succ n ih =>
    intro s
    unfold builderOuter
    split
    · exact (builderEntry_frame s).trans (ih _)
    · exact BuilderFrame.rfl s

theorem builderRun_frame (s : State) : BuilderFrame s (builderRun s) := by
  unfold builderRun
  exact BuilderFrame.trans (show BuilderFrame s { s with bidx := 0#9 } from Eq.refl _) (builderOuter_frame _ _)

/-! ### The complete table -/

theorem crcTable_get (i : Byte) : crcTable[i.toFin] = tableFn i := by
  unfold crcTable
  simp

/-- A state whose TABLE is the complete table reads `T` everywhere. -/
theorem tableRead_of_table {s : State} (h : s.table = crcTable) (i : Byte) : tableRead i s = tableFn i := by
  unfold tableRead
  rw [h]
  exact crcTable_get i

end Sys2Proof.Machine
end

