-- ==== Sys2Proof/Laws/Decode.lean ====
section
/-! SUPPORT. Format C as a number, its fields, and a word as its fields; what `decode` can answer, said once. -/

namespace Sys2Proof

theorem shiftLeft_or_eq (a b n : Nat) (hb : b < 2 ^ n) : a <<< n ||| b = a * 2 ^ n + b := by
  rw [← Nat.shiftLeft_add_eq_or_of_lt hb, Nat.shiftLeft_eq]

theorem formatC_toNat (h : BitVec 16) (op m : BitVec 4) (b : Byte) :
    (formatC h op m b).toNat = h.toNat * 65536 + op.toNat * 4096 + m.toNat * 256 + b.toNat := by
  simp only [formatC, BitVec.toNat_append]
  rw [shiftLeft_or_eq _ _ 4 (by omega), shiftLeft_or_eq _ _ 4 (by omega), shiftLeft_or_eq _ _ 8 (by omega)]
  omega

theorem rsvhOf_toNat (w : Word) : (rsvhOf w).toNat = w.toNat / 65536 := by
  have := w.isLt
  simp only [rsvhOf, BitVec.extractLsb'_toNat, Nat.shiftRight_eq_div_pow]
  omega

theorem opOf_toNat (w : Word) : (opOf w).toNat = w.toNat / 4096 % 16 := by
  simp only [opOf, BitVec.extractLsb'_toNat, Nat.shiftRight_eq_div_pow]

theorem rsvmOf_toNat (w : Word) : (rsvmOf w).toNat = w.toNat / 256 % 16 := by
  simp only [rsvmOf, BitVec.extractLsb'_toNat, Nat.shiftRight_eq_div_pow]

theorem imm8Of_toNat (w : Word) : (imm8Of w).toNat = w.toNat % 256 := by
  simp only [imm8Of, BitVec.extractLsb'_toNat, Nat.shiftRight_eq_div_pow]
  omega

@[simp] theorem rsvhOf_formatC (h : BitVec 16) (op m : BitVec 4) (b : Byte) : rsvhOf (formatC h op m b) = h := by
  apply BitVec.eq_of_toNat_eq
  rw [rsvhOf_toNat, formatC_toNat]
  omega

@[simp] theorem opOf_formatC (h : BitVec 16) (op m : BitVec 4) (b : Byte) : opOf (formatC h op m b) = op := by
  apply BitVec.eq_of_toNat_eq
  rw [opOf_toNat, formatC_toNat]
  omega

@[simp] theorem rsvmOf_formatC (h : BitVec 16) (op m : BitVec 4) (b : Byte) : rsvmOf (formatC h op m b) = m := by
  apply BitVec.eq_of_toNat_eq
  rw [rsvmOf_toNat, formatC_toNat]
  omega

@[simp] theorem imm8Of_formatC (h : BitVec 16) (op m : BitVec 4) (b : Byte) : imm8Of (formatC h op m b) = b := by
  apply BitVec.eq_of_toNat_eq
  rw [imm8Of_toNat, formatC_toNat]
  omega

theorem formatC_of_fields (w : Word) : formatC (rsvhOf w) (opOf w) (rsvmOf w) (imm8Of w) = w := by
  apply BitVec.eq_of_toNat_eq
  rw [formatC_toNat, rsvhOf_toNat, opOf_toNat, rsvmOf_toNat, imm8Of_toNat]
  have := w.isLt
  omega

/-- Reading a word as format C: the fields are all there is to it. -/
theorem exists_fields (w : Word) : ∃ h op m b, w = formatC h op m b :=
  ⟨_, _, _, _, (formatC_of_fields w).symm⟩

/-- The decoder on a word given by its fields. -/
theorem decode_formatC (h : BitVec 16) (op m : BitVec 4) (b : Byte) :
    decode (formatC h op m b) =
      if isOp8F op then .ok (.reservedOp8F h op m b)
      else if isOp67 op then .ok (.reservedOp67 h op m b)
      else if h ≠ 0#16 then .error .nonzeroRsvh
      else if m ≠ 0#4 then .error .nonzeroRsvm
      else decodeCommand op b := by
  simp [decode]

/-- The opcodes: the six commands and the two reserved rows. -/
theorem op_cases (op : BitVec 4) :
    op = 0#4 ∨ op = 1#4 ∨ op = 2#4 ∨ op = 3#4 ∨ op = 4#4 ∨ op = 5#4 ∨
      (isOp8F op = false ∧ isOp67 op = true) ∨ isOp8F op = true := by
  revert op
  decide

/-- Whether a word of format C fits a row is a question about its fields: a mask and a pattern of format C are compared
field by field. -/
theorem formatC_and (h h' : BitVec 16) (op op' m m' : BitVec 4) (b b' : Byte) :
    formatC h op m b &&& formatC h' op' m' b' = formatC (h &&& h') (op &&& op') (m &&& m') (b &&& b') := by
  unfold formatC
  erw [BitVec.and_append, BitVec.and_append, BitVec.and_append]

theorem formatC_inj (h h' : BitVec 16) (op op' m m' : BitVec 4) (b b' : Byte) :
    formatC h op m b = formatC h' op' m' b' ↔ h = h' ∧ op = op' ∧ m = m' ∧ b = b' := by
  constructor
  · intro e
    refine ⟨?_, ?_, ?_, ?_⟩
    · simpa using congrArg rsvhOf e
    · simpa using congrArg opOf e
    · simpa using congrArg rsvmOf e
    · simpa using congrArg imm8Of e
  · rintro ⟨rfl, rfl, rfl, rfl⟩
    rfl

end Sys2Proof
end

