-- ==== Sys2Proof/Laws/Ops.lean ====
section
/-! SUPPORT. Each shared operation's spec, said once: what acceptance can answer, TABLE reads and writes, the values of the
register window. -/

namespace Sys2Proof.Machine

/-! ### Acceptance -/

/-- Everything `submit` can do: one of the three errors, or the effect; always a next state. -/
theorem submit_cases (needsTable needsSession : Bool) (effect : State → State) (s : State) :
    (s.pending ≠ none ∧ submit needsTable needsSession effect s = .next (raise .errBusy s)) ∨
    (s.pending = none ∧ needsTable = true ∧ s.tableValid = false ∧
      submit needsTable needsSession effect s = .next (raise .errNotable s)) ∨
    (s.pending = none ∧ (needsTable = true → s.tableValid = true) ∧ needsSession = true ∧ s.active = false ∧
      submit needsTable needsSession effect s = .next (raise .errSeq s)) ∨
    (s.pending = none ∧ (needsTable = true → s.tableValid = true) ∧ (needsSession = true → s.active = true) ∧
      submit needsTable needsSession effect s = .next (effect s)) := by
  cases hp : s.pending <;> cases hv : s.tableValid <;> cases ha : s.active <;> cases needsTable <;>
    cases needsSession <;> simp [submit, busy, hp, hv, ha]

/-- `submit` when nothing is pending and its preconditions hold. -/
theorem submit_accepts {needsTable needsSession : Bool} {effect : State → State} {s : State} (hp : s.pending = none)
    (ht : needsTable = true → s.tableValid = true) (hs : needsSession = true → s.active = true) :
    submit needsTable needsSession effect s = .next (effect s) := by
  cases needsTable <;> cases needsSession <;> simp_all [submit, busy]

/-- `submit` while a command is pending. -/
theorem submit_busy {needsTable needsSession : Bool} {effect : State → State} {s : State} (hp : s.pending ≠ none) :
    submit needsTable needsSession effect s = .next (raise .errBusy s) := by
  have h : busy s = true := by simpa [busy, Option.isSome_iff_ne_none] using hp
  simp [submit, h]

/-- Everything `rejectWord` can do. -/
theorem rejectWord_eq (s : State) :
    rejectWord s = .next (raise (if s.pending = none then .errBadcmd else .errBusy) s) := by
  cases hp : s.pending <;> simp [rejectWord, busy, hp]

/-- Raising an error sets one bit. -/
theorem raise_eq_busy (s : State) : raise .errBusy s = { s with errBusy := true } := by simp [raise]
theorem raise_eq_badcmd (s : State) : raise .errBadcmd s = { s with errBadcmd := true } := by simp [raise]
theorem raise_eq_notable (s : State) : raise .errNotable s = { s with errNotable := true } := by simp [raise]
theorem raise_eq_seq (s : State) : raise .errSeq s = { s with errSeq := true } := by simp [raise]

/-! ### TABLE -/

/-- A read sees only TABLE. -/
theorem tableRead_congr {s t : State} (h : s.table = t.table) (i : Byte) : tableRead i s = tableRead i t := by
  simp [tableRead, h]

/-- Two tables that read the same everywhere are the same. -/
theorem table_ext {s t : State} (h : ∀ i : Byte, tableRead i s = tableRead i t) : s.table = t.table := by
  apply Vector.ext
  intro k hk
  have := h (BitVec.ofNat 8 k)
  have e : k % 256 = k := Nat.mod_eq_of_lt hk
  simpa [tableRead, e] using this

@[simp] theorem tableRead_tableWrite_same (i : Byte) (v : Word) (s : State) : tableRead i (tableWrite i v s) = v := by
  simp [tableRead]

theorem tableRead_tableWrite_other {i j : Byte} (h : i ≠ j) (v : Word) (s : State) :
    tableRead j (tableWrite i v s) = tableRead j s := by
  have : i.toNat ≠ j.toNat := fun e => h (BitVec.eq_of_toNat_eq e)
  simp [tableRead, this]

/-! ### The window -/

/-- BUSY is bit 0 of STATUS. -/
theorem busy_eq (s : State) : busy s = decide (s.pending ≠ none) := by
  cases h : s.pending <;> simp [busy, h]

theorem readReg_status (s : State) : readReg 0x04 s = statusWord s := rfl
theorem readReg_data (s : State) : readReg 0x08 s = s.data := rfl
theorem readReg_result (s : State) : readReg 0x0C s = s.result := rfl
theorem readReg_tidx (s : State) : readReg 0x10 s = zextByte s.tidx := rfl
theorem readReg_tdata (s : State) : readReg 0x14 s = tdata s := rfl
theorem readReg_poly (s : State) : readReg 0x18 s = 0xEDB88320#32 := rfl

theorem writeReg_status (v : Word) (s : State) : writeReg 0x04 v s = clearErrors v s := rfl
theorem writeReg_data (v : Word) (s : State) : writeReg 0x08 v s = writeData v s := rfl
theorem writeReg_tidx (v : Word) (s : State) : writeReg 0x10 v s = writeTidx v s := rfl

/-- Everything a write to a register other than CMD can do. -/
theorem writeReg_cases (off : Nat) (v : Word) (s : State) :
    (off = 0x04 ∧ writeReg off v s = clearErrors v s) ∨ (off = 0x08 ∧ writeReg off v s = writeData v s) ∨
    (off = 0x10 ∧ writeReg off v s = writeTidx v s) ∨
    (off ≠ 0x04 ∧ off ≠ 0x08 ∧ off ≠ 0x10 ∧ writeReg off v s = s) := by
  unfold writeReg offStatus offData offTidx
  split
  · simp_all
  · split
    · simp_all
    · split <;> simp_all

end Sys2Proof.Machine
end

