-- ==== Sys2Proof/Laws/PerInstr.lean ====
section
/-! SUPPORT. Facts about every instruction as syntax, one lemma per constructor. -/

namespace Sys2Proof.Laws.OpcodeRow

/-- The word of a well-formed instruction fits that instruction's row of the opcode table (30_encoding.md R74). -/
def Statement (i : Instr) : Prop := WellFormed i = true → i.row.fits (encode i) = true

theorem nop : Statement .nop := fun _ => by decide
theorem build : Statement .build := fun _ => by decide
theorem init : Statement .init := fun _ => by decide
theorem foldw : Statement .foldw := fun _ => by decide
theorem final : Statement .final := fun _ => by decide

theorem fold8 (b : Byte) : Statement (.fold8 b) := by
  intro _
  have hm : (0xFFFFFF00#32 : Word) = formatC 0xFFFF#16 15#4 15#4 0#8 := by decide
  have hp : (0x00003000#32 : Word) = formatC 0#16 3#4 0#4 0#8 := by decide
  simp only [Row.fits, Instr.row, encode, hm, hp, formatC_and, beq_iff_eq, formatC_inj]
  refine ⟨by decide, by decide, by decide, by simp⟩

theorem reservedOp67 (rsvh : BitVec 16) (op rsvm : BitVec 4) (imm8 : Byte) :
    Statement (.reservedOp67 rsvh op rsvm imm8) := by
  intro h
  have hm : (0x0000E000#32 : Word) = formatC 0#16 14#4 0#4 0#8 := by decide
  have hp : (0x00006000#32 : Word) = formatC 0#16 6#4 0#4 0#8 := by decide
  simp only [Row.fits, Instr.row, encode, hm, hp, formatC_and, beq_iff_eq, formatC_inj]
  refine ⟨by simp, ?_, by simp, by simp⟩
  revert h
  simp only [WellFormed]
  revert op
  decide

theorem reservedOp8F (rsvh : BitVec 16) (op rsvm : BitVec 4) (imm8 : Byte) :
    Statement (.reservedOp8F rsvh op rsvm imm8) := by
  intro h
  have hm : (0x00008000#32 : Word) = formatC 0#16 8#4 0#4 0#8 := by decide
  simp only [Row.fits, Instr.row, encode, hm, formatC_and, beq_iff_eq, formatC_inj]
  refine ⟨by simp, ?_, by simp, by simp⟩
  revert h
  simp only [WellFormed]
  revert op
  decide

end Sys2Proof.Laws.OpcodeRow
end

