-- ==== Sys2Proof/Laws/Step.lean ====
section
/-! SUPPORT. What `exec`, a host access and a step can do, said once; how runs unfold. -/

namespace Sys2Proof.Machine

/-! ### Commands -/

/-- Everything a command can do at acceptance. -/
theorem exec_cases (i : Instr) (s : State) :
    (∃ e, exec i s = .next (raise e s)) ∨ (i = .nop ∧ exec i s = .next s) ∨
    (s.pending = none ∧
      ((i = .build ∧ exec i s = .next { s with pending := some .build, tableValid := false }) ∨
        (i = .init ∧ s.tableValid = true ∧ exec i s = .next (latch .init s)) ∨
        (∃ b, i = .fold8 b ∧ s.tableValid = true ∧ s.active = true ∧ exec i s = .next (latch (.fold8 b) s)) ∨
        (i = .foldw ∧ s.tableValid = true ∧ s.active = true ∧ exec i s = .next (latch (.foldw s.data) s)) ∨
        (i = .final ∧ s.active = true ∧ exec i s = .next (latch .final s)))) := by
  cases i with
  | nop =>
    rcases submit_cases false false id s with ⟨_, h⟩ | ⟨_, h, _⟩ | ⟨_, _, h, _⟩ | ⟨_, _, _, h⟩
    · exact .inl ⟨_, h⟩
    · simp at h
    · simp at h
    · exact .inr (.inl ⟨rfl, h⟩)
  | build =>
    rcases submit_cases false false (fun s => { latch .build s with tableValid := false }) s with
      ⟨_, h⟩ | ⟨_, h, _⟩ | ⟨_, _, h, _⟩ | ⟨hp, _, _, h⟩
    · exact .inl ⟨_, h⟩
    · simp at h
    · simp at h
    · exact .inr (.inr ⟨hp, .inl ⟨rfl, h⟩⟩)
  | init =>
    rcases submit_cases true false (latch .init) s with ⟨_, h⟩ | ⟨_, _, _, h⟩ | ⟨_, _, h, _⟩ | ⟨hp, hv, _, h⟩
    · exact .inl ⟨_, h⟩
    · exact .inl ⟨_, h⟩
    · simp at h
    · exact .inr (.inr ⟨hp, .inr (.inl ⟨rfl, hv rfl, h⟩)⟩)
  | fold8 b =>
    rcases submit_cases true true (latch (fold8Operand b)) s with ⟨_, h⟩ | ⟨_, _, _, h⟩ | ⟨_, _, _, _, h⟩ | ⟨hp, hv, ha, h⟩
    · exact .inl ⟨_, h⟩
    · exact .inl ⟨_, h⟩
    · exact .inl ⟨_, h⟩
    · exact .inr (.inr ⟨hp, .inr (.inr (.inl ⟨b, rfl, hv rfl, ha rfl, h⟩))⟩)
  | foldw =>
    rcases submit_cases true true (fun s => latch (foldwOperand s) s) s with
      ⟨_, h⟩ | ⟨_, _, _, h⟩ | ⟨_, _, _, _, h⟩ | ⟨hp, hv, ha, h⟩
    · exact .inl ⟨_, h⟩
    · exact .inl ⟨_, h⟩
    · exact .inl ⟨_, h⟩
    · exact .inr (.inr ⟨hp, .inr (.inr (.inr (.inl ⟨rfl, hv rfl, ha rfl, h⟩)))⟩)
  | final =>
    rcases submit_cases false true (latch .final) s with ⟨_, h⟩ | ⟨_, h, _⟩ | ⟨_, _, _, _, h⟩ | ⟨hp, _, ha, h⟩
    · exact .inl ⟨_, h⟩
    · simp at h
    · exact .inl ⟨_, h⟩
    · exact .inr (.inr ⟨hp, .inr (.inr (.inr (.inr ⟨rfl, ha rfl, h⟩)))⟩)
  | reservedOp67 h op m b => exact .inl ⟨_, rejectWord_eq s⟩
  | reservedOp8F h op m b => exact .inl ⟨_, rejectWord_eq s⟩

/-! ### Host accesses -/

/-- An address given as the base and an offset in the window reaches the block at that offset. -/
@[simp] theorem windowOffset_add (base : Nat) {off : Nat} (h : off < 0x40) : windowOffset base (base + off) = some off := by
  simp [windowOffset, windowSize, h]

/-- A CMD write submits its word. -/
theorem hostAccess_cmd (w : Word) (s : State) : hostAccess (.write (s.base + 0x00) 4 w) s = submitWord w s := by
  simp [hostAccess, Access.addr, Access.width, supported, accessReg, offCmd, windowOffset, windowSize]

/-- An aligned 32-bit read returns the register's value. -/
theorem hostAccess_read {off : Nat} (h : off < 0x40) (h4 : off % 4 = 0) (s : State) :
    hostAccess (.read (s.base + off) 4) s = .next (logRead (readReg off s) s) := by
  simp [hostAccess, Access.addr, Access.width, supported, accessReg, h, h4]

/-- An aligned 32-bit write to a register other than CMD. -/
theorem hostAccess_write {off : Nat} (h : off < 0x40) (h4 : off % 4 = 0) (h0 : off ≠ 0) (v : Word) (s : State) :
    hostAccess (.write (s.base + off) 4 v) s = .next (writeReg off v s) := by
  simp [hostAccess, Access.addr, Access.width, supported, accessReg, offCmd, h, h4, h0]

@[simp] theorem runTurn_core (s : State) : runTurn .core s = .next (coreStep s) := rfl
@[simp] theorem runTurn_reset (s : State) : runTurn .reset s = .next (resetBlock s) := rfl

theorem runTurn_cmd {base : Nat} {s : State} (h : s.base = base) (w : Word) :
    runTurn (cmdTurn base w) s = submitWord w s := by
  subst h
  exact hostAccess_cmd w s

theorem runTurn_read {base off : Nat} {s : State} (h : s.base = base) (ho : off < 0x40) (h4 : off % 4 = 0) :
    runTurn (readTurn base off) s = .next (logRead (readReg off s) s) := by
  subst h
  exact hostAccess_read ho h4 s

theorem runTurn_write {base off : Nat} {s : State} (h : s.base = base) (ho : off < 0x40) (h4 : off % 4 = 0)
    (h0 : off ≠ 0) (v : Word) : runTurn (writeTurn base off v) s = .next (writeReg off v s) := by
  subst h
  exact hostAccess_write ho h4 h0 v s

/-- Everything a host access can do when it answers a next state: nothing (outside the window), log a read, submit a
command word, or write another register. -/
theorem hostAccess_next {a : Access} {s t : State} (h : hostAccess a s = .next t) :
    t = s ∨ (∃ v, t = logRead v s) ∨
    (∃ w, a = .write s.base 4 w ∧ submitWord w s = .next t) ∨
    (∃ off v, off ≠ 0 ∧ a = .write (s.base + off) 4 v ∧ t = writeReg off v s) := by
  unfold hostAccess at h
  split at h
  · exact .inl (by simpa using h.symm)
  · next off hw =>
    split at h
    · next hs =>
      have ha : a.addr = s.base + off := by
        unfold windowOffset at hw
        split at hw
        · simp at hw
          omega
        · simp at hw
      cases a with
      | read addr n => exact .inr (.inl ⟨_, by simpa [accessReg] using h.symm⟩)
      | write addr n v =>
        simp [supported, Access.width] at hs
        simp only [Access.addr] at ha
        obtain ⟨hn, -⟩ := hs
        have hn : n = 4 := of_decide_eq_true hn
        subst hn ha
        by_cases h0 : off = 0
        · exact .inr (.inr (.inl ⟨v, by simp [h0], by simpa [accessReg, offCmd, h0] using h⟩))
        · exact .inr (.inr (.inr ⟨off, v, h0, rfl, by simpa [accessReg, offCmd, h0] using h.symm⟩))
    · simp at h

/-- Submitting a word runs the instruction it decodes to, or rejects the word. -/
theorem submitWord_cases (w : Word) (s : State) :
    (∃ i, decode w = .ok i ∧ submitWord w s = exec i s) ∨ (∃ e, submitWord w s = .next (raise e s)) := by
  cases h : decode w with
  | ok i => exact .inl ⟨i, rfl, by simp [submitWord, h]⟩
  | error e => exact .inr ⟨_, by simpa [submitWord, h] using rejectWord_eq s⟩

/-- Everything submitting a word can do: raise one error, nothing (NOP), or latch the command it decodes to. -/
theorem submitWord_next {w : Word} {s t : State} (h : submitWord w s = .next t) :
    (∃ e, t = raise e s) ∨ t = s ∨
    (s.pending = none ∧
      ((decode w = .ok .build ∧ t = { s with pending := some .build, tableValid := false }) ∨
        (s.tableValid = true ∧ t = latch .init s) ∨
        (∃ b, s.tableValid = true ∧ s.active = true ∧ t = latch (.fold8 b) s) ∨
        (s.tableValid = true ∧ s.active = true ∧ t = latch (.foldw s.data) s) ∨
        (s.active = true ∧ t = latch .final s))) := by
  cases hd : decode w with
  | error e =>
    simp only [submitWord, hd, rejectWord_eq] at h
    cases h
    exact .inl ⟨_, rfl⟩
  | ok i =>
    simp only [submitWord, hd] at h
    rcases exec_cases i s with ⟨e, h'⟩ | ⟨_, h'⟩ |
      ⟨hp, ⟨e, h'⟩ | ⟨_, hv, h'⟩ | ⟨b, _, hv, ha, h'⟩ | ⟨_, hv, ha, h'⟩ | ⟨_, ha, h'⟩⟩ <;> rw [h] at h' <;> cases h'
    · exact .inl ⟨e, rfl⟩
    · exact .inr (.inl rfl)
    · exact .inr (.inr ⟨hp, .inl ⟨by rw [e], rfl⟩⟩)
    · exact .inr (.inr ⟨hp, .inr (.inl ⟨hv, rfl⟩)⟩)
    · exact .inr (.inr ⟨hp, .inr (.inr (.inl ⟨b, hv, ha, rfl⟩))⟩)
    · exact .inr (.inr ⟨hp, .inr (.inr (.inr (.inl ⟨hv, ha, rfl⟩)))⟩)
    · exact .inr (.inr ⟨hp, .inr (.inr (.inr (.inr ⟨ha, rfl⟩)))⟩)

/-- While a command is pending, a host access leaves it pending, and leaves RESULT, RESULT_VALID, ACC, ACTIVE, TABLE and
TABLE_VALID. -/
theorem hostAccess_busy {a : Access} {s t : State} {c : Command} (hp : s.pending = some c)
    (h : hostAccess a s = .next t) :
    t.pending = some c ∧ t.result = s.result ∧ t.resultValid = s.resultValid ∧ t.acc = s.acc ∧ t.active = s.active ∧
      t.table = s.table ∧ t.tableValid = s.tableValid ∧ t.base = s.base := by
  rcases hostAccess_next h with e | ⟨v, e⟩ | ⟨w, -, e⟩ | ⟨off, v, -, -, e⟩
  · subst e; simp [hp]
  · subst e; simp [hp]
  · rcases submitWord_next e with ⟨_, e⟩ | e | ⟨e, -⟩
    · subst e; simp [hp]
    · subst e; simp [hp]
    · simp [hp] at e
  · rcases writeReg_cases off v s with ⟨-, e'⟩ | ⟨-, e'⟩ | ⟨-, e'⟩ | ⟨-, -, -, e'⟩ <;> rw [e, e'] <;> simp [hp]

/-! ### Steps and runs -/

@[simp] theorem step_onTurn (t : Turn) (s : State) : step (onTurn t s) = runTurn t s := rfl

/-- Everything a step can do. -/
theorem step_cases {s t : State} (h : step s = .next t) :
    (s.schedule = [] ∧ t = coreStep s) ∨
    (∃ rest, s.schedule = .core :: rest ∧ t = coreStep (setSchedule rest s)) ∨
    (∃ rest, s.schedule = .reset :: rest ∧ t = resetBlock (setSchedule rest s)) ∨
    (∃ a rest, s.schedule = .host a :: rest ∧ hostAccess a (setSchedule rest s) = .next t) := by
  unfold step takeTurn at h
  split at h
  · next hs => exact .inl ⟨hs, by simpa using h.symm⟩
  · next turn rest hs =>
    cases turn with
    | host a => exact .inr (.inr (.inr ⟨a, rest, hs, h⟩))
    | core => exact .inr (.inl ⟨rest, hs, by simpa [runTurn] using h.symm⟩)
    | reset => exact .inr (.inr (.inl ⟨rest, hs, by simpa [runTurn] using h.symm⟩))

@[simp] theorem run_zero (s : State) : Sys2Proof.core.run 0 s = .next s := rfl

theorem run_succ_next {s s' : State} (h : step s = .next s') (n : Nat) :
    Sys2Proof.core.run (n + 1) s = Sys2Proof.core.run n s' := by
  have h' : Sys2Proof.core.step s = .next s' := h
  simp only [Host.Core.run, h']

/-- A run that answers a next state goes through a step that does. -/
theorem run_succ_cases {n : Nat} {s t : State} (h : Sys2Proof.core.run (n + 1) s = .next t) :
    ∃ s', step s = .next s' ∧ Sys2Proof.core.run n s' = .next t := by
  simp only [Host.Core.run] at h
  split at h
  · next s' hs => exact ⟨s', hs, h⟩
  · simp at h
  · simp at h

@[simp] theorem runTurns_nil (s : State) : runTurns [] s = .next s := rfl

end Sys2Proof.Machine
end

