-- ==== Sys2Proof/Laws/Schedule.lean ====
section
/-! SUPPORT. No turn looks at the turns after it, so a run goes turn by turn. -/

namespace Sys2Proof.Machine

/-! ### What a turn does is independent of the schedule -/

theorem busy_setSchedule (ts : List Turn) (s : State) : busy (setSchedule ts s) = busy s := rfl

theorem raise_setSchedule (e : InterfaceError) (ts : List Turn) (s : State) :
    raise e (setSchedule ts s) = setSchedule ts (raise e s) := rfl

theorem submit_setSchedule {nt ns : Bool} {effect : State → State} {s t : State} (ts : List Turn)
    (he : effect (setSchedule ts s) = setSchedule ts (effect s)) (h : submit nt ns effect s = .next t) :
    submit nt ns effect (setSchedule ts s) = .next (setSchedule ts t) := by
  unfold submit at h ⊢
  rw [busy_setSchedule, setSchedule_tableValid, setSchedule_active, raise_setSchedule, raise_setSchedule,
    raise_setSchedule, he]
  split at h
  · next h1 => rw [if_pos h1]; cases h; rfl
  · next h1 =>
    rw [if_neg h1]
    split at h
    · next h2 => rw [if_pos h2]; cases h; rfl
    · next h2 =>
      rw [if_neg h2]
      split at h
      · next h3 => rw [if_pos h3]; cases h; rfl
      · next h3 => rw [if_neg h3]; cases h; rfl

theorem rejectWord_setSchedule {s t : State} (ts : List Turn) (h : rejectWord s = .next t) :
    rejectWord (setSchedule ts s) = .next (setSchedule ts t) := by
  rw [rejectWord_eq] at h ⊢
  cases h
  rfl

theorem exec_setSchedule {i : Instr} {s t : State} (ts : List Turn) (h : exec i s = .next t) :
    exec i (setSchedule ts s) = .next (setSchedule ts t) := by
  cases i with
  | nop => exact submit_setSchedule ts rfl h
  | build =>
    exact submit_setSchedule (effect := fun s => { latch .build s with tableValid := false }) ts rfl h
  | init => exact submit_setSchedule ts rfl h
  | fold8 b => exact submit_setSchedule ts rfl h
  | foldw => exact submit_setSchedule (effect := fun s => latch (foldwOperand s) s) ts rfl h
  | final => exact submit_setSchedule ts rfl h
  | reservedOp67 a b c d => exact rejectWord_setSchedule ts h
  | reservedOp8F a b c d => exact rejectWord_setSchedule ts h

theorem writeReg_setSchedule (off : Nat) (v : Word) (ts : List Turn) (s : State) :
    writeReg off v (setSchedule ts s) = setSchedule ts (writeReg off v s) := by
  unfold writeReg
  split
  · rfl
  · split
    · rfl
    · split <;> rfl

theorem readReg_setSchedule (off : Nat) (ts : List Turn) (s : State) : readReg off (setSchedule ts s) = readReg off s :=
  rfl

theorem hostAccess_setSchedule {a : Access} {s t : State} (ts : List Turn) (h : hostAccess a s = .next t) :
    hostAccess a (setSchedule ts s) = .next (setSchedule ts t) := by
  unfold hostAccess at h ⊢
  rw [setSchedule_base]
  split at h
  · cases h; rfl
  · split at h
    · next hs =>
      rw [if_pos hs]
      cases a with
      | read addr n => cases h; rfl
      | write addr n v =>
        simp only [accessReg] at h ⊢
        split at h
        · next h0 =>
          rw [if_pos h0]
          unfold submitWord at h ⊢
          split at h
          · exact exec_setSchedule ts h
          · exact rejectWord_setSchedule ts h
        · next h0 =>
          rw [if_neg h0, writeReg_setSchedule]
          cases h; rfl
    · cases h

theorem coreStep_setSchedule (ts : List Turn) (s : State) :
    coreStep (setSchedule ts s) = setSchedule ts (coreStep s) := by
  unfold coreStep
  rw [setSchedule_pending]
  cases s.pending with
  | none => rfl
  | some c =>
    cases c with
    | build => rfl
    | init => rfl
    | fold8 b => rfl
    | foldw w => rfl
    | final => rfl

/-- A turn takes no notice of the turns after it. -/
theorem runTurn_setSchedule {t : Turn} {s s' : State} (ts : List Turn) (h : runTurn t s = .next s') :
    runTurn t (setSchedule ts s) = .next (setSchedule ts s') := by
  cases t with
  | host a => exact hostAccess_setSchedule ts h
  | core =>
    cases h
    rw [runTurn_core, coreStep_setSchedule]
  | reset => cases h; rfl

theorem setSchedule_self (s : State) : setSchedule s.schedule s = s := rfl

/-- A turn leaves the turns after it. -/
theorem runTurn_schedule {t : Turn} {s s' : State} (h : runTurn t s = .next s') : s'.schedule = s.schedule := by
  have h' := runTurn_setSchedule s.schedule h
  rw [setSchedule_self, h] at h'
  have e := congrArg (fun o => match o with
    | .next u => u.schedule
    | .fault _ => []
    | .refused _ => []) h'
  exact e

/-! ### Runs -/

/-- A run of turns goes turn by turn. -/
theorem runTurns_cons {t : Turn} {s s' : State} (ts : List Turn) (h : runTurn t s = .next s') :
    runTurns (t :: ts) s = runTurns ts s' := by
  have hs : step (onTurns (t :: ts) s) = .next (onTurns ts s') := by
    have h' := runTurn_setSchedule (ts ++ s.schedule) h
    have e : onTurns ts s' = setSchedule (ts ++ s.schedule) s' := by rw [onTurns, runTurn_schedule h]
    rw [e]
    exact h'
  exact run_succ_next hs ts.length

/-- A run of one list of turns and then another. -/
theorem runTurns_append {ts : List Turn} : ∀ {s s' : State} (us : List Turn), runTurns ts s = .next s' →
    runTurns (ts ++ us) s = runTurns us s' := by
  induction ts with
  | nil => intro s s' us h; cases h; rfl
  | cons t ts ih =>
    intro s s' us h
    have hs := h
    unfold runTurns at hs
    obtain ⟨u, hu, -⟩ := run_succ_cases hs
    have hu' := runTurn_setSchedule s.schedule (show runTurn t (setSchedule (ts ++ s.schedule) s) = .next u from hu)
    have hr : runTurn t s = .next (setSchedule s.schedule u) := hu'
    rw [List.cons_append, runTurns_cons _ hr]
    rw [runTurns_cons _ hr] at h
    exact ih us h

/-- A run of turns that answers a next state goes through its first turn. -/
theorem runTurns_cons_cases {x : Turn} {ts : List Turn} {s t : State} (h : runTurns (x :: ts) s = .next t) :
    ∃ u, runTurn x s = .next u ∧ runTurns ts u = .next t := by
  have hs := h
  unfold runTurns at hs
  obtain ⟨u, hu, -⟩ := run_succ_cases hs
  have hu' := runTurn_setSchedule s.schedule (show runTurn x (setSchedule (ts ++ s.schedule) s) = .next u from hu)
  have hr : runTurn x s = .next (setSchedule s.schedule u) := hu'
  rw [runTurns_cons _ hr] at h
  exact ⟨_, hr, h⟩

/-! ### Steps -/

/-- Everything a step can do, said of the state it starts from: a core step, a reset, nothing (an access outside the
window), a logged read, a submitted word or another register write; each with some turns left to come. -/
theorem step_next {s t : State} (h : step s = .next t) :
    (coreActs s ∧ ∃ u, t = setSchedule u (coreStep s)) ∨
    (resetActs s ∧ ∃ u, t = setSchedule u (resetBlock s)) ∨
    (∃ a u, s.schedule.head? = some (.host a) ∧ t = setSchedule u s) ∨
    (∃ v u, t = setSchedule u (logRead v s)) ∨
    (∃ w u v, hostWrites 0 w s ∧ t = setSchedule u v ∧ submitWord w s = .next v) ∨
    (∃ off w u, off ≠ 0 ∧ hostWrites off w s ∧ t = setSchedule u (writeReg off w s)) := by
  have hS : ∀ rest, setSchedule s.schedule (setSchedule rest s) = s := fun _ => rfl
  rcases step_cases h with ⟨h1, h2⟩ | ⟨rest, h1, h2⟩ | ⟨rest, h1, h2⟩ | ⟨a, rest, h1, h2⟩
  · exact .inl ⟨.inl h1, t.schedule, by rw [h2]; rfl⟩
  · exact .inl ⟨.inr (by simp [h1]), rest, by rw [h2, coreStep_setSchedule]⟩
  · exact .inr (.inl ⟨by simp [resetActs, h1], rest, by rw [h2]; rfl⟩)
  · have h3 := hostAccess_setSchedule s.schedule h2
    rw [hS] at h3
    have hr : t = setSchedule t.schedule (setSchedule s.schedule t) := rfl
    rcases hostAccess_next h3 with e | ⟨v, e⟩ | ⟨w, e, e2⟩ | ⟨off, v, h0, e, e2⟩
    · exact .inr (.inr (.inl ⟨a, t.schedule, by simp [h1], by rw [← e]; exact hr⟩))
    · exact .inr (.inr (.inr (.inl ⟨v, t.schedule, by rw [← e]; exact hr⟩)))
    · refine .inr (.inr (.inr (.inr (.inl ⟨w, t.schedule, _, ?_, hr, e2⟩))))
      simp [hostWrites, h1, writeTurn, e]
    · refine .inr (.inr (.inr (.inr (.inr ⟨off, v, t.schedule, h0, ?_, by rw [← e2]; exact hr⟩))))
      simp [hostWrites, h1, writeTurn, e]

end Sys2Proof.Machine
end

