-- ==== Sys2Proof/Tests/Slice0.lean ====
section
/-! SUPPORT. The model's own tests. Expected values come from spec/95_test_vectors.md (named in each comment) or are written
out by hand from 30_encoding.md. `witness_X` shows states and operands that meet the hypotheses of `Obligations.X`, clause
by clause. -/

namespace Sys2Proof.Tests

open Sys2Proof Sys2Proof.Machine

/-! ### Helpers -/

/-- A field of the next state, if there is one. -/
def after {α : Type} (o : Host.Outcome State Fault Refusal) (f : State → α) : Option α :=
  match o with
  | .next t => some (f t)
  | .fault _ => none
  | .refused _ => none

theorem next_of_after {α : Type} {o : Host.Outcome State Fault Refusal} {f : State → α} {a : α}
    (h : after o f = some a) : ∃ t, o = .next t ∧ f t = a := by
  cases o with
  | next t => exact ⟨t, rfl, Option.some.inj h⟩
  | fault r => cases h
  | refused r => cases h

/-- The next turn is a CMD write of `w`. -/
def submits (w : Word) (s : State) : Host.Outcome State Fault Refusal := step (onTurn (cmdTurn s.base w) s)

/-- The next turn is the core's. -/
def completes (s : State) : Host.Outcome State Fault Refusal := step (onTurn .core s)

/-- The table is built (STATUS `0x00000002`). -/
def built : State := { State.reset with table := crcTable, tableValid := true }

/-- A session is open (STATUS `0x00000006`), ACC as INIT leaves it. -/
def inSession : State := { built with active := true, acc := 0xFFFFFFFF#32, data := 0x34333231#32 }

/-- A BUILD is pending (STATUS `0x00000001`). -/
def building : State := { State.reset with pending := some .build }

/-- An open session with a command pending. -/
def pendingIn (c : Command) : State := { inSession with pending := some c }

/-- A FINAL pending after the nine bytes of 95 section 2.4. -/
def finalPending : State := { pendingIn .final with acc := 0x340BC6D9#32 }

/-- Turns to come: an access at the last word of the window, one just outside it, a core turn and a reset. -/
def scheduled : State :=
  { building with schedule := [.host (.read 0x3C 4), .host (.write 0x40 1 0#32), .core, .reset] }

/-- After a session (STATUS `0x0000000A`). -/
def finished : State := { built with resultValid := true, result := 0xCBF43926#32 }

/-! ### Well-formedness: ill-formed terms are refused -/

/-- RESERVED_OP_6_7 has OP 6 or 7 only (spec/opcode_table.json). -/
theorem test_wellFormed_refuses_op67 :
    WellFormed (.reservedOp67 0 5 0 0) = false ∧ WellFormed (.reservedOp67 0 8 0 0) = false ∧
    WellFormed (.reservedOp67 0 0 0 0) = false := by decide

/-- RESERVED_OP_8_F has OP 8 to 15 only (spec/opcode_table.json). -/
theorem test_wellFormed_refuses_op8F :
    WellFormed (.reservedOp8F 0 7 0 0) = false ∧ WellFormed (.reservedOp8F 0 0 0xF 0xFF) = false := by decide

/-! ### Decoding: words written out bit by bit from 30_encoding.md R70, R74 (RSVH OP RSVM IMM8) -/

theorem test_decode_nop : decode 0b0000000000000000_0000_0000_00000000#32 = .ok .nop := by decide
theorem test_decode_build : decode 0b0000000000000000_0001_0000_00000000#32 = .ok .build := by decide
theorem test_decode_init : decode 0b0000000000000000_0010_0000_00000000#32 = .ok .init := by decide
theorem test_decode_fold8 : decode 0b0000000000000000_0011_0000_10100101#32 = .ok (.fold8 0xA5#8) := by decide
theorem test_decode_foldw : decode 0b0000000000000000_0100_0000_00000000#32 = .ok .foldw := by decide
theorem test_decode_final : decode 0b0000000000000000_0101_0000_00000000#32 = .ok .final := by decide

theorem test_decode_reservedOp67 :
    decode 0b1000000000000001_0110_1001_11110000#32 = .ok (.reservedOp67 0x8001#16 6#4 9#4 0xF0#8) ∧
    decode 0b0000000000000000_0111_0000_00000001#32 = .ok (.reservedOp67 0#16 7#4 0#4 1#8) := by decide

theorem test_decode_reservedOp8F :
    decode 0b0000000000000000_1000_0000_00000000#32 = .ok (.reservedOp8F 0#16 8#4 0#4 0#8) ∧
    decode 0b0000000000000000_1111_0000_11111111#32 = .ok (.reservedOp8F 0#16 15#4 0#4 0xFF#8) := by decide

/-- Words that fit no row (95 vectors A12, A13, A14, A19; P2 line 10), with the top reserved bits too. -/
theorem test_decode_refuses :
    decode 0x00004001#32 = .error .nonzeroImm8 ∧ decode 0x00013000#32 = .error .nonzeroRsvh ∧
    decode 0x00003100#32 = .error .nonzeroRsvm ∧ decode 0x00000001#32 = .error .nonzeroImm8 ∧
    decode 0x00001001#32 = .error .nonzeroImm8 ∧ decode 0x80002000#32 = .error .nonzeroRsvh ∧
    decode 0x00005800#32 = .error .nonzeroRsvm := by decide

/-- The `match` words of spec/opcode_table.json, with the table's 32 bits, and a word that is invalid. -/
theorem test_decodeTableWord :
    decodeTableWord 32 0x00000000 = some .nop ∧ decodeTableWord 32 0x00001000 = some .build ∧
    decodeTableWord 32 0x00002000 = some .init ∧ decodeTableWord 32 0x00003000 = some (.fold8 0#8) ∧
    decodeTableWord 32 0x00004000 = some .foldw ∧ decodeTableWord 32 0x00005000 = some .final ∧
    decodeTableWord 32 0x00006000 = some (.reservedOp67 0#16 6#4 0#4 0#8) ∧
    decodeTableWord 32 0x00008000 = some (.reservedOp8F 0#16 8#4 0#4 0#8) ∧ decodeTableWord 32 0x00004001 = none := by
  decide

/-- The command words of 30_encoding.md R77. -/
theorem test_encode :
    encode (.fold8 0x41#8) = 0x00003041#32 ∧ encode .foldw = 0x00004000#32 ∧
    encode (.reservedOp8F 0xFFFF#16 15#4 15#4 0xFF#8) = 0xFFFFFFFF#32 := by decide

/-- The first step after reset with each row's word placed (95 vectors A1, A3, A4; R132, R133). -/
theorem test_step_withFetchWord :
    after (step (State.reset.withFetchWord 32 0x00000000)) statusWord = some 0x00000000#32 ∧
    after (step (State.reset.withFetchWord 32 0x00001000)) statusWord = some 0x00000001#32 ∧
    after (step (State.reset.withFetchWord 32 0x00002000)) statusWord = some 0x00000400#32 ∧
    after (step (State.reset.withFetchWord 32 0x00003041)) statusWord = some 0x00000400#32 ∧
    after (step (State.reset.withFetchWord 32 0x00004000)) statusWord = some 0x00000400#32 ∧
    after (step (State.reset.withFetchWord 32 0x00005000)) statusWord = some 0x00000800#32 ∧
    after (step (State.reset.withFetchWord 32 0x00006000)) statusWord = some 0x00000200#32 ∧
    after (step (State.reset.withFetchWord 32 0x00008000)) statusWord = some 0x00000200#32 := by decide

/-! ### Commands at acceptance (95 section 2.7) -/

/-- A17, A18. -/
theorem test_nop :
    after (submits 0x00000000#32 inSession) statusWord = some 0x00000006#32 ∧
    after (submits 0x00000000#32 (pendingIn (.fold8 0x31#8))) statusWord = some 0x00000107#32 := by decide

/-- A4, A7. -/
theorem test_build_accepted :
    after (submits 0x00001000#32 State.reset) statusWord = some 0x00000001#32 ∧
    after (submits 0x00001000#32 built) (fun t => (statusWord t, t.pending)) = some (0x00000001#32, some .build) := by
  decide

/-- A5, A9. -/
theorem test_init_accepted :
    after (submits 0x00002000#32 building) (fun t => (statusWord t, t.pending)) = some (0x00000101#32, some .build) ∧
    after (submits 0x00002000#32 built) (fun t => (statusWord t, t.pending)) = some (0x00000003#32, some .init) := by
  decide

/-- A2, A8, A10. -/
theorem test_fold8_accepted :
    after (submits 0x00003041#32 State.reset) statusWord = some 0x00000400#32 ∧
    after (submits 0x00003031#32 built) statusWord = some 0x00000802#32 ∧
    after (submits 0x00003031#32 inSession) (fun t => (statusWord t, t.pending)) =
      some (0x00000007#32, some (.fold8 0x31#8)) := by decide

/-- A11, A12. -/
theorem test_foldw_accepted :
    after (submits 0x00004000#32 inSession) (fun t => (statusWord t, t.pending)) =
      some (0x00000007#32, some (.foldw 0x34333231#32)) ∧
    after (submits 0x00004001#32 inSession) statusWord = some 0x00000206#32 := by decide

/-- A21, A22. -/
theorem test_final_accepted :
    after (submits 0x00005000#32 inSession) (fun t => (statusWord t, t.pending)) = some (0x00000007#32, some .final) ∧
    after (submits 0x00005000#32 finished) statusWord = some 0x0000080A#32 := by decide

/-- A15, A23. -/
theorem test_reservedOp67 :
    after (submits 0x00006000#32 inSession) statusWord = some 0x00000206#32 ∧
    after (submits 0x00006000#32 { inSession with errBadcmd := true }) statusWord = some 0x00000206#32 := by decide

/-- A16, A6. -/
theorem test_reservedOp8F :
    after (submits 0x0000F0FF#32 inSession) statusWord = some 0x00000206#32 ∧
    after (submits 0xFFFFFFFF#32 building) (fun t => (statusWord t, t.pending)) =
      some (0x00000101#32, some .build) := by decide

/-! ### Commands at completion (95 section 2.7, the completion vectors) -/

/-- A4, with `T(1)` (L1-2), `T(0x80)` and `T(0xFF)` (2.1). -/
theorem test_build_completes :
    after (completes building) statusWord = some 0x00000002#32 ∧
    after (completes building) (fun t => (tableRead 1#8 t, tableRead 0x80#8 t, tableRead 0xFF#8 t)) =
      some (0x77073096#32, 0xEDB88320#32, 0x2D02EF8D#32) := by decide +kernel

/-- A9. -/
theorem test_init_completes :
    after (completes { built with pending := some .init }) (fun t => (statusWord t, t.acc)) =
      some (0x00000006#32, 0xFFFFFFFF#32) := by decide

/-- A10. -/
theorem test_fold8_completes :
    after (completes (pendingIn (.fold8 0x31#8))) (fun t => (statusWord t, t.acc)) =
      some (0x00000006#32, 0x7C231048#32) := by decide +kernel

/-- A11; the other byte order of 95 section 2.5 gives another RESULT (`0xC48EBF68`). -/
theorem test_foldw_completes :
    after (completes (pendingIn (.foldw 0x34333231#32))) State.acc = some 0x641C1F5C#32 ∧
    after (completes (pendingIn (.foldw 0x31323334#32))) (fun t => ~~~t.acc) = some 0xC48EBF68#32 := by decide +kernel

/-- A21, and the example of 41_hasher.md R116. -/
theorem test_final_completes :
    after (completes (pendingIn .final)) (fun t => (statusWord t, t.result)) = some (0x0000000A#32, 0x00000000#32) ∧
    after (completes finalPending) State.result = some 0xCBF43926#32 := by decide

/-! ### The table function and the fold step (95 sections 2.1 to 2.3) -/

/-- 2.1, entries of several rows, and the corner cases of 2.2. -/
theorem test_tableFn :
    tableFn 0#8 = 0x00000000#32 ∧ tableFn 3#8 = 0x990951BA#32 ∧ tableFn 0x42#8 = 0x98D220BC#32 ∧
    tableFn 0x9D#8 = 0x8EBEEFF9#32 ∧ tableFn 0xCE#8 = 0x7CDCEFB7#32 ∧ tableFn 0xFE#8 = 0x5A05DF1B#32 ∧
    reflStep 0x00000001#32 = 0xEDB88320#32 ∧ reflStep 0xFFFFFFFF#32 = 0x92477CDF#32 ∧
    reflStep 0x80000000#32 = 0x40000000#32 := by decide

/-- 2.3. -/
theorem test_foldStepT :
    foldStepT 0x00000000#32 0xFF#8 = 0x2D02EF8D#32 ∧ foldStepT 0xFFFFFFFF#32 0xFF#8 = 0x00FFFFFF#32 ∧
    foldStepT 0xFFFFFFFF#32 0x00#8 = 0x2DFD1072#32 ∧ foldStepT 0x12345678#32 0x00#8 = 0x5ECCCD58#32 ∧
    foldStepT 0xCBF43926#32 0x26#8 = 0x00CBF439#32 := by decide

/-- 2.5: "abc", and four bytes of each kind. -/
theorem test_crcHash :
    crcHash [0x61#8, 0x62#8, 0x63#8] = 0x352441C2#32 ∧ crcHash (wordBytes 0x00000000#32) = 0x2144DF1C#32 ∧
    crcHash (wordBytes 0xFFFFFFFF#32) = 0xFFFFFFFF#32 := by decide +kernel

/-! ### Register accesses (95 section 2.8) -/

/-- W1, W2, W3. -/
theorem test_status_write :
    let s := { built with errBusy := true, errBadcmd := true, errNotable := true, errSeq := true }
    after (step (onTurn (writeTurn 0 0x04 0x00000500#32) s)) statusWord = some 0x00000A02#32 ∧
    after (step (onTurn (writeTurn 0 0x04 0xFFFFFFFF#32) s)) statusWord = some 0x00000002#32 ∧
    after (step (onTurn (writeTurn 0 0x04 0x00000000#32) s)) statusWord = some 0x00000F02#32 := by decide

/-- W4, W13, W14. -/
theorem test_tidx_data_write :
    after (step (onTurn (writeTurn 0 0x10 0x00000101#32) built)) (readReg 0x10) = some 0x00000001#32 ∧
    after (step (onTurn (writeTurn 0 0x08 0xDEADBEEF#32) built)) (readReg 0x08) = some 0xDEADBEEF#32 ∧
    after (step (onTurn (writeTurn 0 0x08 0x00000000#32) (pendingIn (.foldw 0x34333231#32))))
      (fun t => (t.data, t.pending)) = some (0x00000000#32, some (.foldw 0x34333231#32)) := by decide

/-- W5, W6. -/
theorem test_tdata_read :
    after (step (onTurn (readTurn 0 0x14) { built with tidx := 1#8 })) State.readLog = some [0x77073096#32] ∧
    after (step (onTurn (readTurn 0 0x14) { building with tidx := 1#8 })) State.readLog = some [0x00000000#32] := by
  decide +kernel

/-- W7, W8, W9, W10, W11, W12. -/
theorem test_constant_and_ignored :
    after (step (onTurn (readTurn 0 0x18) building)) State.readLog = some [0xEDB88320#32] ∧
    after (step (onTurn (writeTurn 0 0x18 0#32) built)) (readReg 0x18) = some 0xEDB88320#32 ∧
    after (step (onTurn (writeTurn 0 0x0C 0#32) finished)) State.result = some 0xCBF43926#32 ∧
    after (step (onTurn (readTurn 0 0x00) built)) State.readLog = some [0x00000000#32] ∧
    after (step (onTurn (readTurn 0 0x20) finished)) State.readLog = some [0x00000000#32] ∧
    after (step (onTurn (writeTurn 0 0x3C 0x12345678#32) built)) statusWord = some 0x00000002#32 := by decide

/-- W15 (8-bit read at `0x04`), W16 (32-bit write at `0x02`). -/
theorem test_unsupported_access :
    step (onTurn (.host (.read 0x04 1)) State.reset) = .fault .busUnsupported ∧
    step (onTurn (.host (.write 0x02 4 0#32)) State.reset) = .fault .busUnsupported := ⟨rfl, rfl⟩

/-! ### Reset (95 section 2.9) -/

/-- X1, X4: from a finished session. X2: with a BUILD pending. X3: with a session open. -/
theorem test_reset_turn :
    after (step (onTurn .reset finished)) (fun t => (statusWord t, t.result, readReg 0x14 t)) =
      some (0x00000000#32, 0#32, 0#32) ∧
    after (step (onTurn .reset building)) (fun t => (statusWord t, readReg 0x14 t)) = some (0x00000000#32, 0#32) ∧
    after (step (onTurn .reset (pendingIn .final))) (fun t => after (submits 0x00003031#32 t) statusWord) =
      some (some 0x00000400#32) := by decide

/-! ### Witnesses: the invariant's states -/

theorem inv_built : Inv built where
  busyIffPending := by decide
  tableCorrect := fun _ => tableRead_of_table rfl
  sessionHasTable := by decide
  sessionCommands := by simp [built, State.reset]
  tableCommands := by simp [built, State.reset]
  reservedZero := by decide
  buildHidesTable := by decide
  resultZero := by decide
  baseAligned := by decide
  bidxRange := by decide
  bcntRange := by decide

theorem inv_inSession : Inv inSession where
  busyIffPending := by decide
  tableCorrect := fun _ => tableRead_of_table rfl
  sessionHasTable := by decide
  sessionCommands := by simp [inSession, built, State.reset]
  tableCommands := by simp [inSession, built, State.reset]
  reservedZero := by decide
  buildHidesTable := by decide
  resultZero := by decide
  baseAligned := by decide
  bidxRange := by decide
  bcntRange := by decide

theorem inv_building : Inv building where
  busyIffPending := by decide
  tableCorrect := by decide
  sessionHasTable := by decide
  sessionCommands := by simp [building, State.reset]
  tableCommands := by simp [building, State.reset]
  reservedZero := by decide
  buildHidesTable := by decide
  resultZero := by decide
  baseAligned := by decide
  bidxRange := by decide
  bcntRange := by decide

/-- A state that differs from `building` in everything no host can see, with the builder's registers at the top of their
ranges. -/
def buildingOther : State :=
  { building with table := crcTable, acc := 7#32, bidx := 256#9, bcnt := 8#4, bacc := 9#32, draws := 5 }

theorem inv_buildingOther : Inv buildingOther where
  busyIffPending := by decide
  tableCorrect := by decide
  sessionHasTable := by decide
  sessionCommands := by simp [buildingOther, building, State.reset]
  tableCommands := by simp [buildingOther, building, State.reset]
  reservedZero := by decide
  buildHidesTable := by decide
  resultZero := by decide
  baseAligned := by decide
  bidxRange := by decide
  bcntRange := by decide

/-! ### Witnesses: encoding -/

theorem witness_DecodeOfEncodeIsIdentity :
    WellFormed .nop = true ∧ WellFormed .build = true ∧ WellFormed .init = true ∧ WellFormed (.fold8 0xFF#8) = true ∧
    WellFormed .foldw = true ∧ WellFormed .final = true ∧ WellFormed (.reservedOp67 0xFFFF#16 6#4 0#4 0xFF#8) = true ∧
    WellFormed (.reservedOp67 0#16 7#4 15#4 0#8) = true ∧ WellFormed (.reservedOp8F 0#16 8#4 0#4 0#8) = true ∧
    WellFormed (.reservedOp8F 0xFFFF#16 15#4 15#4 0xFF#8) = true := by decide

theorem witness_EncodeOfDecodeIsIdentity : decode 0x000030FF#32 = .ok (.fold8 0xFF#8) := by decide

theorem witness_DecodeFollowsTheOpcodeTable :
    decode 0x000030FF#32 = .ok (.fold8 0xFF#8) ∧ decode 0x00004001#32 = .error .nonzeroImm8 ∧
    (Instr.fold8 0xFF#8).row ∈ opcodeTable ∧ (Instr.fold8 0xFF#8).row.fits 0x000030FF#32 = true := by decide

theorem witness_ValidWordsAreTheSixCommands :
    validWord 0x00005000#32 = true ∧ decode 0x00005000#32 = .ok .final ∧ isCommand .final = true ∧
    validWord 0x00006000#32 = false ∧ State.reset.pending = none := by decide

/-! ### Witnesses: a CMD write -/

theorem witness_StepRunsTheSubmittedCommand :
    decode 0x00003041#32 = .ok (.fold8 0x41#8) ∧ decode 0x00003100#32 = .error .nonzeroRsvm ∧
    State.reset.pending = none ∧ building.pending ≠ none := by decide

theorem witness_CmdWriteFollowsTheCheckOrder :
    cmdError 0x00003031#32 inSession = none ∧ cmdError 0x00003031#32 State.reset = some .errNotable := by decide

theorem witness_RejectedWordSetsOnlyItsErrorBit :
    cmdError 0xFFFFFFFF#32 building = some .errBusy ∧ cmdError 0x00000001#32 inSession = some .errBadcmd ∧
    cmdError 0x00003041#32 State.reset = some .errNotable ∧ cmdError 0x00005000#32 State.reset = some .errSeq := by decide

/-- A next state of each arm: PENDING filled, an error raised, BUILD, NOP and a reserved opcode. -/
theorem witness_AcceptanceFrame :
    exec (.fold8 0xFF#8) inSession = .next (pendingIn (.fold8 0xFF#8)) ∧ (pendingIn (.fold8 0xFF#8)).pending ≠ inSession.pending ∧
    exec .build built = .next { built with pending := some .build, tableValid := false } ∧
    exec .nop built = .next built ∧ building.pending ≠ none ∧
    exec (.reservedOp8F 0#16 15#4 0#4 0#8) building = .next (raise .errBusy building) ∧
    isCommand (.reservedOp8F 0#16 15#4 0#4 0#8) = false :=
  ⟨rfl, by decide, rfl, rfl, by decide, rfl, rfl⟩

/-! ### Witnesses: commands -/

theorem witness_NopHasNoEffect :
    built.pending = none ∧ building.pending ≠ none ∧
    ((0x00000001#32).extractLsb' 12 4 = 0#4 ∧ (0x00000001#32) ≠ 0x00000000#32) ∧
    ((0xFFFF0FFF#32).extractLsb' 12 4 = 0#4 ∧ (0xFFFF0FFF#32) ≠ 0x00000000#32) := by decide

theorem witness_BuildFillsTheTable :
    built.pending = none ∧ building.pending = some .build ∧ building.pending ≠ none ∧
    (0x00001001#32).extractLsb' 12 4 = 1#4 ∧ (0x00001001#32) ≠ 0x00001000#32 ∧
    (0x80001000#32).extractLsb' 12 4 = 1#4 ∧ (0x80001000#32) ≠ 0x00001000#32 ∧
    (Inv built ∧ built.tableValid = true) ∧ (Inv inSession ∧ inSession.pending = none) :=
  ⟨by decide, by decide, by decide, by decide, by decide, by decide, by decide, ⟨inv_built, rfl⟩, inv_inSession, rfl⟩

theorem witness_InitOpensASession :
    (built.pending = none ∧ built.tableValid = true) ∧ (inSession.pending = none ∧ inSession.tableValid = true) ∧
    (pendingIn .init).pending = some .init ∧ building.pending ≠ none ∧
    (State.reset.pending = none ∧ State.reset.tableValid = false) ∧
    ((0x00002100#32).extractLsb' 12 4 = 2#4 ∧ (0x00002100#32) ≠ 0x00002000#32) := by decide

theorem witness_Fold8FoldsOneByte :
    (inSession.pending = none ∧ inSession.tableValid = true ∧ inSession.active = true) ∧
    (pendingIn (.fold8 0xFF#8)).pending = some (.fold8 0xFF#8) ∧ building.pending ≠ none ∧
    (State.reset.pending = none ∧ State.reset.tableValid = false) ∧
    (built.pending = none ∧ built.tableValid = true ∧ built.active = false) ∧
    ((0x00013000#32).extractLsb' 12 4 = 3#4 ∧ (0x00013000#32).extractLsb' 16 16 ≠ 0#16) ∧
    ((0x00003100#32).extractLsb' 12 4 = 3#4 ∧ (0x00003100#32).extractLsb' 8 4 ≠ 0#4) ∧
    (∀ i : Byte, tableRead i built = tableFn i) :=
  ⟨by decide, by decide, by decide, by decide, by decide, by decide, by decide, tableRead_of_table rfl⟩

theorem witness_FoldwFoldsFourBytes :
    (inSession.pending = none ∧ inSession.tableValid = true ∧ inSession.active = true) ∧
    (pendingIn (.foldw 0x34333231#32)).pending = some (.foldw 0x34333231#32) ∧ building.pending ≠ none ∧
    (State.reset.pending = none ∧ State.reset.tableValid = false) ∧
    (built.pending = none ∧ built.tableValid = true ∧ built.active = false) ∧
    ((0x00004001#32).extractLsb' 12 4 = 4#4 ∧ (0x00004001#32) ≠ 0x00004000#32) ∧
    (∀ i : Byte, tableRead i (pendingIn (.foldw 0x34333231#32)) = tableFn i) ∧
    (pendingIn (.foldw 0x34333231#32)).acc = 0xFFFFFFFF#32 ∧
    ((pendingIn (.foldw 0#32)).pending = some (.foldw 0#32) ∧ ∀ i : Byte, tableRead i (pendingIn (.foldw 0#32)) = tableFn i) :=
  ⟨by decide, by decide, by decide, by decide, by decide, by decide, tableRead_of_table rfl, by decide, by decide,
    tableRead_of_table rfl⟩

theorem witness_FinalProducesTheChecksum :
    (inSession.pending = none ∧ inSession.active = true) ∧ (pendingIn .final).pending = some .final ∧
    building.pending ≠ none ∧ (State.reset.pending = none ∧ State.reset.active = false) ∧
    ((0x00005001#32).extractLsb' 12 4 = 5#4 ∧ (0x00005001#32) ≠ 0x00005000#32) ∧
    (finalPending.pending = some .final ∧ finalPending.acc = 0x340BC6D9#32 ∧ statusWord finalPending = 0x00000007#32) ∧ (pendingIn .final).acc = 0xFFFFFFFF#32 := by decide

theorem witness_ReservedOpcodesAreRejected :
    State.reset.pending = none ∧ building.pending ≠ none ∧ 6 ≤ ((0x00006000#32).extractLsb' 12 4).toNat ∧
    6 ≤ ((0xFFFFFFFF#32).extractLsb' 12 4).toNat := by decide

/-! ### Witnesses: builder and hasher -/

theorem witness_MicroSequenceComputesTheTable : building.pending = some .build := by decide

theorem witness_BuildIsDeterministic :
    ∃ t t', step (onTurn .core building) = .next t ∧ step (onTurn .core buildingOther) = .next t' ∧
      building.pending = some .build ∧ buildingOther.pending = some .build := ⟨_, _, rfl, rfl, rfl, rfl⟩

theorem witness_FoldStepFormula : Inv inSession ∧ inSession.tableValid = true := ⟨inv_inSession, rfl⟩

theorem witness_WordBytesAreLittleEndian :
    (pendingIn (.foldw 0x34333231#32)).pending = some (.foldw 0x34333231#32) := by decide

theorem witness_FoldwEqualsFourFold8 :
    inSession.pending = none ∧ inSession.tableValid = true ∧ inSession.active = true := by decide

theorem witness_EmptyInputGivesZero : built.pending = none ∧ built.tableValid = true := by decide

theorem witness_SessionComputesTheHash : Inv built ∧ built.tableValid = true ∧ built.pending = none :=
  ⟨inv_built, rfl, rfl⟩

/-- Two states and two sessions of the one byte `0x61`, one of them with a read in between. -/
theorem witness_SessionsOfTheSameBytesAgree :
    Inv built ∧ Inv inSession ∧ built.tableValid = true ∧ inSession.tableValid = true ∧ built.pending = none ∧
    inSession.pending = none ∧
    fedBytes (dataAfter built.data []) [.fold8 0x61#8 []] = fedBytes (dataAfter inSession.data []) [.fold8 0x61#8 [.read 1]] ∧
    (∃ t, runTurns (sessionTurns built.base [] [.fold8 0x61#8 []] []) built = .next t ∧ t.resultValid = true) ∧
    (∃ t, runTurns (sessionTurns inSession.base [] [.fold8 0x61#8 [.read 1]] []) inSession = .next t ∧
      t.resultValid = true) :=
  ⟨inv_built, inv_inSession, rfl, rfl, rfl, rfl, by decide, next_of_after (by decide), next_of_after (by decide)⟩

/-! ### Witnesses: register accesses -/

theorem witness_IgnoredAccesses : ∀ k ∈ [(3 : Fin 16), 5, 6, 7, 15],
    k.val = 3 ∨ k.val = 5 ∨ k.val = 6 ∨ 7 ≤ k.val := by decide

theorem witness_AccessesWhileBusy : (pendingIn .final).pending ≠ none := by decide

/-- The last byte, a word-aligned offset with another width on each side of 4, the first misaligned offset. -/
theorem witness_UnsupportedAccessesFault : ∀ p ∈ [(0x3F, 4), (0x3C, 5), (0x00, 3), (0x00, 0), (0x01, 4), (0x3F, 1)],
    p.1 ≤ 0x3F ∧ (p.2 ≠ 4 ∨ p.1 % 4 ≠ 0) := by decide

/-- The bytes next to the window on either side; the lower one starts an access of any width, so also one that would reach
into the window. -/
theorem witness_AccessesOutsideTheWindowChangeNothing :
    63 < ({ State.reset with base := 64 } : State).base ∧ ({ State.reset with base := 64 } : State).base + 0x3F < 128 := by
  decide

theorem witness_TdataReadsZeroWithoutTable :
    State.reset.tableValid = false ∧ (Inv built ∧ built.tableValid = true) ∧
    (Inv building ∧ building.pending = some .build) := ⟨rfl, ⟨inv_built, rfl⟩, ⟨inv_building, rfl⟩⟩

/-! ### Witnesses: what changes what -/

theorem witness_TableValidChangesOnlyByBuildOrReset :
    (∃ t, step (onTurn .reset built) = .next t ∧ t.tableValid ≠ (onTurn .reset built).tableValid) ∧
    (∃ t, submits 0x00001000#32 built = .next t ∧ t.tableValid ≠ built.tableValid) ∧
    (∃ t, completes building = .next t ∧ t.tableValid ≠ building.tableValid) ∧
    (Inv building ∧ ∃ t, step building = .next t ∧ t.tableValid = true) :=
  ⟨⟨_, rfl, by decide⟩, ⟨_, rfl, by decide⟩, ⟨_, rfl, by decide⟩, inv_building, _, rfl, by decide⟩

theorem witness_ActiveChangesOnlyByInitFinalReset :
    (∃ t, completes { built with pending := some .init } = .next t ∧ t.active ≠ built.active) ∧
    (∃ t, completes (pendingIn .final) = .next t ∧ t.active ≠ (pendingIn .final).active) ∧
    (∃ t, step (onTurn .reset inSession) = .next t ∧ t.active ≠ inSession.active) :=
  ⟨⟨_, rfl, by decide⟩, ⟨_, rfl, by decide⟩, ⟨_, rfl, by decide⟩⟩

theorem witness_ResultChangesOnlyAtFinalOrReset :
    (∃ t, completes (pendingIn .final) = .next t ∧ t.resultValid ≠ (pendingIn .final).resultValid) ∧
    (∃ t, step (onTurn .reset finished) = .next t ∧ t.result ≠ finished.result) :=
  ⟨⟨_, rfl, by decide⟩, ⟨_, rfl, by decide⟩⟩

theorem witness_AccumulatorIsNeverSeeded :
    (∃ t, completes { built with pending := some .init } = .next t ∧ t.acc ≠ built.acc) ∧
    (∃ t, completes (pendingIn (.fold8 0x31#8)) = .next t ∧ t.acc ≠ inSession.acc) ∧
    (∃ t, completes (pendingIn (.foldw 0x34333231#32)) = .next t ∧ t.acc ≠ inSession.acc) ∧
    (∃ t, step (onTurn .reset inSession) = .next t ∧ t.acc ≠ inSession.acc) :=
  ⟨⟨_, rfl, by decide⟩, ⟨_, rfl, by decide +kernel⟩, ⟨_, rfl, by decide +kernel⟩, ⟨_, rfl, by decide⟩⟩

/-- The bit set before: it stays over a core turn, and a STATUS write with a 1 there, or a reset, clears it. -/
theorem witness_ErrorBitsAreSticky :
    let s := raised .errSeq building
    (statusWord s).getLsbD (errorCode .errSeq) = true ∧ (∃ t, completes s = .next t) ∧
    (∃ t, step (onTurn (writeTurn 0 0x04 0x800#32) s) = .next t ∧ t.errSeq = false) ∧
    (∃ t, step (onTurn .reset s) = .next t ∧ t.errSeq = false) ∧ building.pending = some .build ∧
    cmdError 0x00002000#32 built = none ∧ cmdError 0x00005000#32 built = some .errSeq :=
  ⟨by decide, ⟨_, rfl⟩, ⟨_, rfl, by decide⟩, ⟨_, rfl, by decide⟩, rfl, by decide, by decide⟩

theorem witness_DataAndTidxChangeOnlyByHostOrReset :
    (∃ t, step (onTurn (writeTurn 0 0x08 1#32) building) = .next t ∧ t.data ≠ building.data) ∧
    (∃ t, step (onTurn (writeTurn 0 0x10 1#32) building) = .next t ∧ t.tidx ≠ building.tidx) ∧
    (∃ t, step (onTurn .reset inSession) = .next t ∧ t.data ≠ inSession.data) :=
  ⟨⟨_, rfl, by decide⟩, ⟨_, rfl, by decide⟩, ⟨_, rfl, by decide⟩⟩

theorem witness_TableHasOneWriter :
    (∃ t, completes building = .next t) ∧ (∃ t, step (onTurn .reset built) = .next t) := ⟨⟨_, rfl⟩, ⟨_, rfl⟩⟩

/-! ### Witnesses: the core, runs, reset, invariants -/

theorem witness_CoreTurnCompletesThePendingCommand :
    built.pending = none ∧ building.pending = some .build ∧ (pendingIn .init).pending = some .init ∧
    (pendingIn (.fold8 0#8)).pending = some (.fold8 0#8) ∧ (pendingIn (.foldw 0#32)).pending = some (.foldw 0#32) ∧
    (pendingIn .final).pending = some .final := by decide

theorem witness_BusyReadsOneUntilCompletion :
    building.pending = some .build ∧
    ∃ t, runTurns ([.read 0x04 4, .write 0x08 4 5#32].map Turn.host) building = .next t ∧ t.pending = some .build :=
  ⟨rfl, next_of_after (by decide)⟩

theorem witness_PendingCommandsComplete :
    (∀ t ∈ scheduled.schedule, turnSupported scheduled.base t) ∧ Ended { built with schedule := [.core, .reset] } ∧
    (Ended built ∧ built.schedule = []) := by
  refine ⟨?_, ⟨by simp, rfl⟩, ⟨by simp [built, State.reset], rfl⟩, rfl⟩
  intro t ht
  simp only [scheduled, List.mem_cons, List.not_mem_nil, or_false] at ht
  rcases ht with rfl | rfl | rfl | rfl
  · intro off h
    have e : windowOffset scheduled.base (Access.addr (.read 0x3C 4)) = some 0x3C := by decide
    rw [e] at h
    cases h
    decide
  · intro off h
    have e : windowOffset scheduled.base (Access.addr (.write 0x40 1 0#32)) = none := by decide
    rw [e] at h
    cases h
  · trivial
  · trivial

theorem witness_BothOrdersOfBuildAndInitAreAdmitted : built.pending = none ∧ State.reset.pending = none := by decide

theorem witness_ResultIsOldUntilFinalCompletes :
    Inv inSession ∧ inSession.pending = none ∧ inSession.active = true ∧ inSession.resultValid = false ∧
    ∃ t, runTurns (cmdTurn inSession.base 0x00005000#32 :: [.read 0x0C 4, .write 0x00 4 0x00001000#32].map Turn.host)
      inSession = .next t ∧ t.pending = some .final :=
  ⟨inv_inSession, rfl, rfl, rfl, next_of_after (by decide)⟩

theorem witness_DataMayBeRewrittenAfterFoldw :
    inSession.pending = none ∧ inSession.tableValid = true ∧ inSession.active = true := by decide

theorem witness_StepKeepsTheInvariant :
    (Inv building ∧ ∃ t, step building = .next t) ∧ (Inv inSession ∧ ∃ t, submits 0x00004000#32 inSession = .next t) :=
  ⟨⟨inv_building, _, rfl⟩, ⟨inv_inSession, _, rfl⟩⟩

theorem witness_ReachableStatesMeetTheInvariant :
    64 % 64 = 0 ∧ ∃ t, Sys2Proof.core.run 3
      { State.reset with
        base := 64, schedule := [cmdTurn 64 0x00001000#32, .core, .reset], table := crcTable
        bidx := BitVec.ofNat 9 (256 : Fin 257).val, bcnt := BitVec.ofNat 4 (8 : Fin 9).val, bacc := 1#32 } = .next t ∧
      t.draws = 3 :=
  ⟨rfl, next_of_after (by decide)⟩

/-- `building` and `buildingOther` differ in every item no host can see. -/
theorem witness_UnspecifiedStateIsUnobservable :
    Inv building ∧ Inv buildingOther ∧ SameVisible building buildingOther ∧ building.acc ≠ buildingOther.acc ∧
    ∃ t, Sys2Proof.core.run 1 building = .next t :=
  ⟨inv_building, inv_buildingOther,
    ⟨rfl, rfl, rfl, rfl, rfl, rfl, rfl, rfl, rfl, rfl, rfl, rfl, rfl, rfl, by decide, by decide⟩, by decide, _, rfl⟩

end Sys2Proof.Tests
end

section
/-! PROOF. What the decoder's answers say of the word, and a CMD write as the check order of 42_control.md R130. -/

namespace Sys2Proof.Machine

/-! ### Valid words (30_encoding.md R75) -/

theorem validWord_formatC (h : BitVec 16) (op m : BitVec 4) (b : Byte) :
    validWord (formatC h op m b) = (h == 0#16 && m == 0#4 && decide (op.toNat ≤ 5) && (op == 3#4 || b == 0#8)) := by
  have hh := rsvhOf_formatC h op m b
  have hop := opOf_formatC h op m b
  have hm := rsvmOf_formatC h op m b
  have hb := imm8Of_formatC h op m b
  unfold rsvhOf at hh
  unfold opOf at hop
  unfold rsvmOf at hm
  unfold imm8Of at hb
  simp only [validWord, hh, hop, hm, hb]

theorem decodeBare_ok {i j : Instr} {b : Byte} (h : decodeBare i b = .ok j) : j = i ∧ b = 0#8 := by
  unfold decodeBare at h
  split_ifs at h with hb
  exact ⟨(Except.ok.inj h).symm, hb⟩

/-- A decoded command is the encoding of its fields, and has the operand byte only if it is FOLD8 (R72, R74). -/
theorem decodeCommand_ok {op : BitVec 4} {b : Byte} {i : Instr} (h8 : isOp8F op ≠ true) (h6 : isOp67 op ≠ true)
    (h : decodeCommand op b = .ok i) :
    encode i = formatC 0#16 op 0#4 b ∧ isCommand i = true ∧ op.toNat ≤ 5 ∧ (op = 3#4 ∨ b = 0#8) := by
  rcases op_cases op with rfl | rfl | rfl | rfl | rfl | rfl | ⟨-, h'⟩ | h'
  · obtain ⟨rfl, rfl⟩ := decodeBare_ok (i := .nop) h
    decide
  · obtain ⟨rfl, rfl⟩ := decodeBare_ok (i := .build) h
    decide
  · obtain ⟨rfl, rfl⟩ := decodeBare_ok (i := .init) h
    decide
  · obtain rfl : Instr.fold8 b = i := Except.ok.inj h
    exact ⟨rfl, rfl, by decide, .inl rfl⟩
  · obtain ⟨rfl, rfl⟩ := decodeBare_ok (i := .foldw) h
    decide
  · obtain ⟨rfl, rfl⟩ := decodeBare_ok (i := .final) h
    decide
  · exact absurd h' h6
  · exact absurd h' h8

/-- A command that does not decode has a nonzero operand byte and is not FOLD8. -/
theorem decodeCommand_error {op : BitVec 4} {b : Byte} {e : DecodeError} (h : decodeCommand op b = .error e) :
    op ≠ 3#4 ∧ b ≠ 0#8 := by
  unfold decodeCommand decodeBare at h
  split_ifs at h with h3
  all_goals exact ⟨h3, by assumption⟩

/-- The opcodes of the reserved rows are above those of the commands. -/
theorem not_le_five_of_reserved {op : BitVec 4} (h : isOp8F op = true ∨ isOp67 op = true) : ¬ op.toNat ≤ 5 := by
  revert op
  decide

/-- A word that decodes is the encoding of what it decodes to, and is valid exactly if that is a command. -/
theorem decode_ok {w : Word} {i : Instr} (h : decode w = .ok i) : encode i = w ∧ validWord w = isCommand i := by
  obtain ⟨rsvh, op, rsvm, b, rfl⟩ := exists_fields w
  rw [decode_formatC] at h
  rw [validWord_formatC]
  split_ifs at h with h8 h6 hh hm
  · cases h
    exact ⟨rfl, by simp [not_le_five_of_reserved (.inl h8), isCommand]⟩
  · cases h
    exact ⟨rfl, by simp [not_le_five_of_reserved (.inr h6), isCommand]⟩
  · obtain rfl : rsvh = 0#16 := not_not.mp hh
    obtain rfl : rsvm = 0#4 := not_not.mp hm
    obtain ⟨henc, hcmd, hop, hb⟩ := decodeCommand_ok h8 h6 h
    exact ⟨henc, by simpa [hcmd, hop] using hb⟩

/-- A word that does not decode is not valid. -/
theorem validWord_of_decode_error {w : Word} {e : DecodeError} (h : decode w = .error e) : validWord w = false := by
  obtain ⟨rsvh, op, rsvm, b, rfl⟩ := exists_fields w
  rw [decode_formatC] at h
  rw [validWord_formatC]
  split_ifs at h with h8 h6 hh hm
  · simp [hh]
  · simp [hm]
  · obtain ⟨hop, hb⟩ := decodeCommand_error h
    simp [hop, hb]

/-- `s` with BUILD accepted (40_table_builder.md R100). -/
def acceptBuild (s : State) : State := { s with pending := some .build, tableValid := false }

/-! ### The check order (42_control.md R130, 60_exceptions.md R153) -/

/-- `raised` is the model's `raise`. -/
theorem raise_eq_raised (e : InterfaceError) (s : State) : raise e s = raised e s := by
  cases e with
  | errBusy => exact raise_eq_busy s
  | errBadcmd => exact raise_eq_badcmd s
  | errNotable => exact raise_eq_notable s
  | errSeq => exact raise_eq_seq s

/-- The state after a CMD write of `w`: the first error of the check order, or the effect of acceptance. -/
def cmdOutcome (w : Word) (s : State) : State := (cmdError w s).elim (acceptEffect w s) (raised · s)

theorem cmdOutcome_of_some {w : Word} {s : State} {e : InterfaceError} (h : cmdError w s = some e) :
    cmdOutcome w s = raised e s := by
  simp [cmdOutcome, h]

theorem cmdOutcome_of_none {w : Word} {s : State} (h : cmdError w s = none) : cmdOutcome w s = acceptEffect w s := by
  simp [cmdOutcome, h]

/-- A word that is not valid is rejected as R130 says. -/
theorem rejectWord_eq_cmdOutcome {w : Word} (hv : validWord w = false) (s : State) :
    rejectWord s = .next (cmdOutcome w s) := by
  rw [rejectWord_eq, raise_eq_raised]
  by_cases hp : s.pending = none
  · rw [cmdOutcome_of_some (e := .errBadcmd) (by simp [cmdError, hp, hv]), if_pos hp]
  · rw [cmdOutcome_of_some (e := .errBusy) (by simp [cmdError, hp]), if_neg hp]

section
variable {w : Word} {needsTable needsSession : Bool}

/-- The check order for a valid word, with what its opcode needs as two flags. -/
theorem cmdError_of_valid (hv : validWord w = true)
    (ht : needsTable = true ↔ (opOf w).toNat = 2 ∨ (opOf w).toNat = 3 ∨ (opOf w).toNat = 4)
    (hs : needsSession = true ↔ (opOf w).toNat = 3 ∨ (opOf w).toNat = 4 ∨ (opOf w).toNat = 5) (s : State) :
    cmdError w s =
      if s.pending ≠ none then some .errBusy
      else if needsTable = true ∧ s.tableValid = false then some .errNotable
      else if needsSession = true ∧ s.active = false then some .errSeq
      else none := by
  simp only [ht, hs, opOf, cmdError, hv, Bool.true_eq_false, if_false]

/-- The model's check of a command's two needs is the check order. -/
theorem submit_eq_cmdOutcome (hv : validWord w = true)
    (ht : needsTable = true ↔ (opOf w).toNat = 2 ∨ (opOf w).toNat = 3 ∨ (opOf w).toNat = 4)
    (hs : needsSession = true ↔ (opOf w).toNat = 3 ∨ (opOf w).toNat = 4 ∨ (opOf w).toNat = 5)
    {effect : State → State} {s : State} (he : effect s = acceptEffect w s) :
    submit needsTable needsSession effect s = .next (cmdOutcome w s) := by
  have herr := cmdError_of_valid hv ht hs s
  rcases submit_cases needsTable needsSession effect s with
    ⟨hp, h⟩ | ⟨hp, hnt, htv, h⟩ | ⟨hp, htv, hns, ha, h⟩ | ⟨hp, htv, ha, h⟩ <;> rw [h]
  · rw [raise_eq_raised, cmdOutcome_of_some (e := .errBusy) (by simp [herr, hp])]
  · rw [raise_eq_raised, cmdOutcome_of_some (e := .errNotable) (by simp [herr, hp, hnt, htv])]
  · rw [raise_eq_raised, cmdOutcome_of_some (e := .errSeq) (by simp [herr, hp, hns, ha]; exact htv)]
  · have hTable : ¬ (needsTable = true ∧ s.tableValid = false) := fun ⟨hnt, hv⟩ => by simp [htv hnt] at hv
    have hSession : ¬ (needsSession = true ∧ s.active = false) := fun ⟨hns, ha'⟩ => by simp [ha hns] at ha'
    rw [he, cmdOutcome_of_none (by rw [herr, if_neg (not_not.mpr hp), if_neg hTable, if_neg hSession])]

end

/-- FOLD8 latches the byte of its word (R72). -/
theorem acceptEffect_fold8 (b : Byte) (s : State) : acceptEffect (encode (.fold8 b)) s = latch (fold8Operand b) s := by
  have hop : (encode (.fold8 b)).extractLsb' 12 4 = 3#4 := opOf_formatC 0#16 3#4 0#4 b
  have hb : (encode (.fold8 b)).extractLsb' 0 8 = b := imm8Of_formatC 0#16 3#4 0#4 b
  simp only [acceptEffect, hop, hb]
  rfl

/-- Every CMD write follows the check order. -/
theorem submitWord_eq_cmdOutcome (w : Word) (s : State) : submitWord w s = .next (cmdOutcome w s) := by
  cases hd : decode w with
  | error e =>
    rw [submitWord, hd]
    exact rejectWord_eq_cmdOutcome (validWord_of_decode_error hd) s
  | ok i =>
    rw [submitWord, hd]
    obtain ⟨rfl, hv⟩ := decode_ok hd
    cases i with
    | nop => exact submit_eq_cmdOutcome hv (by decide) (by decide) rfl
    | build => exact submit_eq_cmdOutcome (effect := acceptBuild) hv (by decide) (by decide) rfl
    | init => exact submit_eq_cmdOutcome hv (by decide) (by decide) rfl
    | fold8 b => exact submit_eq_cmdOutcome hv (by simp [encode]) (by simp [encode]) (acceptEffect_fold8 b s).symm
    | foldw => exact submit_eq_cmdOutcome (effect := fun s => latch (foldwOperand s) s) hv (by decide) (by decide) rfl
    | final => exact submit_eq_cmdOutcome hv (by decide) (by decide) rfl
    | reservedOp67 _ _ _ _ => exact rejectWord_eq_cmdOutcome hv s
    | reservedOp8F _ _ _ _ => exact rejectWord_eq_cmdOutcome hv s

theorem step_cmdWrite (w : Word) (s : State) : step (onTurn (cmdTurn s.base w) s) = .next (cmdOutcome w s) := by
  rw [step_onTurn, runTurn_cmd rfl, submitWord_eq_cmdOutcome]

end Sys2Proof.Machine
end

section
/-! PROOF. The bits of STATUS, and the error bits through each operation (10_state.md R22 to R28). -/

namespace Sys2Proof.Machine

/-! ### The bits of STATUS -/

/-- Four flags side by side, the last one at bit 0. -/
theorem flags_getLsbD (d c b a : Bool) (k : Nat) :
    (BitVec.ofBool d ++ BitVec.ofBool c ++ BitVec.ofBool b ++ BitVec.ofBool a).getLsbD k = [a, b, c, d].getD k false := by
  by_cases hk : k < 4
  · revert k d c b a
    decide
  · rw [BitVec.getLsbD_of_ge _ _ (by omega), List.getD_eq_default _ _ (by simp; omega)]

/-- The four parts STATUS is put together from: the reserved top, the errors, reserved bits, the state flags. -/
theorem statusParts_getLsbD (top : BitVec 20) (errors flags : BitVec (1 + 1 + 1 + 1)) (reserved : BitVec 4) (k : Nat) :
    (top ++ errors ++ reserved ++ flags).getLsbD k =
      if k < 4 then flags.getLsbD k
      else if k - 4 < 4 then reserved.getLsbD (k - 4)
      else if k - 4 - 4 < 4 then errors.getLsbD (k - 4 - 4)
      else top.getLsbD (k - 4 - 4 - 4) := by
  simp only [BitVec.getLsbD_append]

/-- The bits of STATUS from bit 0 on; those past the list are 0 (R22, R28). -/
def statusBits (s : State) : List Bool :=
  [decide (s.pending ≠ none), s.tableValid, s.active, s.resultValid, false, false, false, false,
    s.errBusy, s.errBadcmd, s.errNotable, s.errSeq]

theorem statusWord_getLsbD (s : State) (k : Nat) : (statusWord s).getLsbD k = (statusBits s).getD k false := by
  refine (statusParts_getLsbD _ _ _ _ k).trans ?_
  simp only [flags_getLsbD, ← busy_eq, statusBits]
  rcases k with _ | _ | _ | _ | _ | _ | _ | _ | _ | _ | _ | _ | k <;> simp

/-- Bits [7:4], bits [31:12] and every index past the word (R28). -/
theorem statusWord_reserved (s : State) {k : Nat} (hk : (4 ≤ k ∧ k ≤ 7) ∨ 12 ≤ k) :
    (statusWord s).getLsbD k = false := by
  rw [statusWord_getLsbD]
  rcases hk with ⟨h4, h7⟩ | h12
  · obtain rfl | rfl | rfl | rfl : k = 4 ∨ k = 5 ∨ k = 6 ∨ k = 7 := by omega
    all_goals rfl
  · exact List.getD_eq_default _ _ h12

/-- R41 (f): the mask selects reserved bits only. -/
theorem statusWord_and_reservedMask (s : State) : statusWord s &&& 0xFFFFF0F0#32 = 0#32 := by
  have hmask : ∀ k < 32, ¬ ((4 ≤ k ∧ k ≤ 7) ∨ 12 ≤ k) → (0xFFFFF0F0#32).getLsbD k = false := by decide
  apply BitVec.eq_of_getLsbD_eq
  intro k hk
  rw [BitVec.getLsbD_and]
  by_cases hr : (4 ≤ k ∧ k ≤ 7) ∨ 12 ≤ k
  · simp [statusWord_reserved s hr]
  · simp [hmask k hk hr]

/-! ### The error bits -/

/-- The sticky bit of an interface error (R27). -/
def errorBit (e : InterfaceError) (s : State) : Bool :=
  match e with
  | .errBusy => s.errBusy
  | .errBadcmd => s.errBadcmd
  | .errNotable => s.errNotable
  | .errSeq => s.errSeq

@[simp] theorem statusWord_errorCode (e : InterfaceError) (s : State) :
    (statusWord s).getLsbD (errorCode e) = errorBit e s := by
  rw [statusWord_getLsbD]
  cases e <;> rfl

@[simp] theorem errorBit_raise (e e' : InterfaceError) (s : State) :
    errorBit e (raise e' s) = (errorBit e s || decide (e' = e)) := by
  cases e <;> rfl

@[simp] theorem errorBit_clearErrors (e : InterfaceError) (v : Word) (s : State) :
    errorBit e (clearErrors v s) = (errorBit e s && !v.getLsbD (errorCode e)) := by
  cases e <;> rfl

@[simp] theorem errorBit_setSchedule (e : InterfaceError) (ts : List Turn) (s : State) :
    errorBit e (setSchedule ts s) = errorBit e s := by
  cases e <;> rfl

@[simp] theorem errorBit_logRead (e : InterfaceError) (v : Word) (s : State) : errorBit e (logRead v s) = errorBit e s := by
  cases e <;> rfl

@[simp] theorem errorBit_latch (e : InterfaceError) (c : Command) (s : State) : errorBit e (latch c s) = errorBit e s := by
  cases e <;> rfl

@[simp] theorem errorBit_resetBlock (e : InterfaceError) (s : State) : errorBit e (resetBlock s) = false := by
  cases e <;> rfl

/-- A completion leaves the error bits. -/
@[simp] theorem errorBit_complete (e : InterfaceError) (c : Command) (s : State) :
    errorBit e (complete c s) = errorBit e s := by
  cases c with
  | build => cases e <;> rfl
  | init => cases e <;> rfl
  | fold8 b => cases e <;> rfl
  | foldw w => cases e <;> rfl
  | final => cases e <;> rfl

theorem coreStep_pending {c : Command} {s : State} (hp : s.pending = some c) : coreStep s = complete c s := by
  simp [coreStep, hp]

theorem coreStep_idle {s : State} (hp : s.pending = none) : coreStep s = s := by
  simp [coreStep, hp]

@[simp] theorem errorBit_coreStep (e : InterfaceError) (s : State) : errorBit e (coreStep s) = errorBit e s := by
  cases hp : s.pending with
  | none => rw [coreStep_idle hp]
  | some c => rw [coreStep_pending hp, errorBit_complete]

/-- A submitted word clears no error bit. -/
theorem errorBit_submitWord {e : InterfaceError} {w : Word} {s t : State} (h : submitWord w s = .next t)
    (he : errorBit e s = true) : errorBit e t = true := by
  have hBuild : errorBit e { s with pending := some .build, tableValid := false } = errorBit e s := by cases e <;> rfl
  rcases submitWord_next h with ⟨e', rfl⟩ | rfl |
    ⟨-, ⟨-, rfl⟩ | ⟨-, rfl⟩ | ⟨b, -, -, rfl⟩ | ⟨-, -, rfl⟩ | ⟨-, rfl⟩⟩ <;> simp [he, hBuild]

/-- A register write clears an error bit only at STATUS, with a 1 in the bit's place (42_control.md R134). -/
theorem errorBit_writeReg {e : InterfaceError} (off : Nat) (v : Word) {s : State} (he : errorBit e s = true) :
    errorBit e (writeReg off v s) = true ∨ (off = 0x04 ∧ v.getLsbD (errorCode e) = true) := by
  rcases writeReg_cases off v s with ⟨h, hw⟩ | ⟨-, hw⟩ | ⟨-, hw⟩ | ⟨-, -, -, hw⟩ <;> rw [hw]
  · cases hv : v.getLsbD (errorCode e) <;> simp [h, he, hv]
  · exact .inl (by cases e <;> exact he)
  · exact .inl (by cases e <;> exact he)
  · exact .inl he

/-- A write to STATUS clears the errors it names. -/
theorem step_statusWrite (s : State) (v : Word) :
    step (onTurn (writeTurn s.base 0x04 v) s) = .next (clearErrors v s) := by
  rw [step_onTurn, runTurn_write rfl (by decide) (by decide) (by decide), writeReg_status]

/-- A write to STATUS sees the error places of its value only. -/
theorem clearErrors_and_errorMask (v : Word) (s : State) : clearErrors (v &&& 0x00000F0F#32) s = clearErrors v s := by
  simp [clearErrors]

/-- Settles O31: the layout is `statusWord_getLsbD`, and a STATUS write is `clearErrors`. -/
theorem statusWordLayout : Obligations.StatusWordLayout := by
  unfold Obligations.StatusWordLayout
  refine ⟨fun s => ?_, fun s v => ⟨_, step_statusWrite s v, fun k hk => statusWord_reserved _ hk⟩, fun s v => ?_⟩
  · refine ⟨statusWord_getLsbD s 0, statusWord_getLsbD s 1, statusWord_getLsbD s 2, statusWord_getLsbD s 3,
      statusWord_errorCode .errBusy s, statusWord_errorCode .errBadcmd s, statusWord_errorCode .errNotable s,
      statusWord_errorCode .errSeq s, fun k hk => statusWord_reserved s hk⟩
  · rw [step_statusWrite, step_statusWrite, clearErrors_and_errorMask]

end Sys2Proof.Machine
end

section
/-! PROOF. What a step does to the control state, said once; the invariant of 10_state.md R41; the writers of TABLE_VALID,
ACTIVE, RESULT and RESULT_VALID. -/

namespace Sys2Proof.Machine

/-! ### The control state -/

/-- `t` differs from `s` at most in the error bits, DATA, TIDX, BACC and the model's own fields: what host accesses other
than an accepted command word can change, and BACC, which nothing below speaks of. -/
structure SameControl (s t : State) : Prop where
  base : t.base = s.base
  tableValid : t.tableValid = s.tableValid
  active : t.active = s.active
  resultValid : t.resultValid = s.resultValid
  result : t.result = s.result
  acc : t.acc = s.acc
  table : t.table = s.table
  pending : t.pending = s.pending
  bidx : t.bidx = s.bidx
  bcnt : t.bcnt = s.bcnt

theorem sameControl_setSchedule (ts : List Turn) (s : State) : SameControl s (setSchedule ts s) :=
  ⟨rfl, rfl, rfl, rfl, rfl, rfl, rfl, rfl, rfl, rfl⟩

theorem sameControl_logRead (v : Word) (s : State) : SameControl s (logRead v s) :=
  ⟨rfl, rfl, rfl, rfl, rfl, rfl, rfl, rfl, rfl, rfl⟩

theorem sameControl_raise (e : InterfaceError) (s : State) : SameControl s (raise e s) :=
  ⟨rfl, rfl, rfl, rfl, rfl, rfl, rfl, rfl, rfl, rfl⟩

theorem sameControl_writeReg (off : Nat) (v : Word) (s : State) : SameControl s (writeReg off v s) := by
  rcases writeReg_cases off v s with ⟨-, h⟩ | ⟨-, h⟩ | ⟨-, h⟩ | ⟨-, -, -, h⟩ <;> rw [h] <;>
    exact ⟨rfl, rfl, rfl, rfl, rfl, rfl, rfl, rfl, rfl, rfl⟩

/-- The schedule is no part of the control state. -/
theorem SameControl.withSchedule {s t : State} (h : SameControl s t) (ts : List Turn) :
    SameControl s (setSchedule ts t) :=
  ⟨h.base, h.tableValid, h.active, h.resultValid, h.result, h.acc, h.table, h.pending, h.bidx, h.bcnt⟩

/-! ### What a step does to the control state -/

/-- The table and the session a command needs when it is accepted (42_control.md R130). -/
def Admits (c : Command) (s : State) : Prop :=
  match c with
  | .build => True
  | .init => s.tableValid = true
  | .fold8 _ => s.tableValid = true ∧ s.active = true
  | .foldw _ => s.tableValid = true ∧ s.active = true
  | .final => s.active = true

/-- The five things a step can do to the control state. -/
inductive ControlStep (s t : State) : Prop where
  | keeps (h : SameControl s t)
  | completes (c : Command) (hcore : coreActs s) (hp : s.pending = some c) (h : SameControl (complete c s) t)
  | resets (hreset : resetActs s) (h : SameControl (resetBlock s) t)
  | acceptsBuild (hw : hostWrites 0x00 0x00001000#32 s) (hp : s.pending = none) (h : SameControl (acceptBuild s) t)
  | accepts (c : Command) (hne : c ≠ .build) (hp : s.pending = none) (hc : Admits c s) (h : SameControl (latch c s) t)

/-- A submitted word is rejected, is NOP, or is accepted. -/
theorem submitWord_control {w : Word} {s t : State} (hw : hostWrites 0x00 w s) (h : submitWord w s = .next t)
    (ts : List Turn) : ControlStep s (setSchedule ts t) := by
  rcases submitWord_next h with ⟨e, rfl⟩ | rfl | ⟨hp, ⟨hd, rfl⟩ | ⟨hv, rfl⟩ | ⟨b, hv, ha, rfl⟩ | ⟨hv, ha, rfl⟩ | ⟨ha, rfl⟩⟩
  · exact .keeps ((sameControl_raise e s).withSchedule ts)
  · exact .keeps (sameControl_setSchedule ts _)
  · obtain rfl : 0x00001000#32 = w := (decode_ok hd).1
    exact .acceptsBuild hw hp (sameControl_setSchedule ts (acceptBuild s))
  · exact .accepts .init nofun hp hv (sameControl_setSchedule ts _)
  · exact .accepts (.fold8 b) nofun hp ⟨hv, ha⟩ (sameControl_setSchedule ts _)
  · exact .accepts (.foldw s.data) nofun hp ⟨hv, ha⟩ (sameControl_setSchedule ts _)
  · exact .accepts .final nofun hp ha (sameControl_setSchedule ts _)

theorem step_control {s t : State} (h : step s = .next t) : ControlStep s t := by
  rcases step_next h with ⟨hc, ts, rfl⟩ | ⟨hr, ts, rfl⟩ | ⟨-, ts, -, rfl⟩ | ⟨v, ts, rfl⟩ | ⟨w, ts, u, hw, rfl, hs⟩ |
    ⟨off, v, ts, -, -, rfl⟩
  · cases hp : s.pending with
    | none =>
      rw [coreStep_idle hp]
      exact .keeps (sameControl_setSchedule ts s)
    | some c =>
      rw [coreStep_pending hp]
      exact .completes c hc hp (sameControl_setSchedule ts _)
  · exact .resets hr (sameControl_setSchedule ts _)
  · exact .keeps (sameControl_setSchedule ts s)
  · exact .keeps ((sameControl_logRead v s).withSchedule ts)
  · exact submitWord_control hw hs ts
  · exact .keeps ((sameControl_writeReg off v s).withSchedule ts)

/-! ### The invariant (R41) -/

/-- R41 (a) holds of every state: BUSY is computed from PENDING (R23). -/
theorem statusWord_busy_iff (s : State) : (statusWord s).getLsbD 0 = true ↔ s.pending ≠ none := by
  rw [statusWord_getLsbD]
  exact decide_eq_true_iff

/-- With nothing pending the clauses about commands hold of themselves. -/
theorem inv_of_idle {s : State} (hp : s.pending = none) (htable : s.tableValid = true → ∀ i, tableRead i s = tableFn i)
    (hsession : s.active = true → s.tableValid = true) (hresult : s.resultValid = false → s.result = 0#32)
    (hbase : s.base % 64 = 0) (hbidx : s.bidx.toNat ≤ 256) (hbcnt : s.bcnt.toNat ≤ 8) : Inv s where
  busyIffPending := statusWord_busy_iff s
  tableCorrect := htable
  sessionHasTable ha _ := hsession ha
  sessionCommands := by simp [hp]
  tableCommands := by simp [hp]
  reservedZero := statusWord_and_reservedMask s
  buildHidesTable := by simp [hp]
  resultZero := hresult
  baseAligned := hbase
  bidxRange := hbidx
  bcntRange := hbcnt

/-- The invariant speaks of the control state only. -/
theorem inv_of_sameControl {s t : State} (hi : Inv s) (h : SameControl s t) : Inv t where
  busyIffPending := statusWord_busy_iff t
  tableCorrect hv i := by
    rw [tableRead_congr h.table]
    exact hi.tableCorrect (h.tableValid ▸ hv) i
  sessionHasTable := by
    rw [h.active, h.pending, h.tableValid]
    exact hi.sessionHasTable
  sessionCommands := by
    rw [h.active, h.pending]
    exact hi.sessionCommands
  tableCommands := by
    rw [h.pending, h.tableValid]
    exact hi.tableCommands
  reservedZero := statusWord_and_reservedMask t
  buildHidesTable := by
    rw [h.pending, h.tableValid]
    exact hi.buildHidesTable
  resultZero := by
    rw [h.resultValid, h.result]
    exact hi.resultZero
  baseAligned := h.base ▸ hi.baseAligned
  bidxRange := h.bidx ▸ hi.bidxRange
  bcntRange := h.bcnt ▸ hi.bcntRange

theorem bidx_le (n : Fin 257) : (BitVec.ofNat 9 n.val).toNat ≤ 256 := by
  rw [BitVec.toNat_ofNat]
  omega

theorem bcnt_le (n : Fin 9) : (BitVec.ofNat 4 n.val).toNat ≤ 8 := by
  rw [BitVec.toNat_ofNat]
  omega

/-- Reset keeps BASE and sets every other clause right. -/
theorem inv_resetBlock {s : State} (hbase : s.base % 64 = 0) : Inv (resetBlock s) :=
  inv_of_idle rfl nofun nofun (fun _ => rfl) hbase (bidx_le _) (bcnt_le _)

/-- A completion keeps the invariant: BUILD fills TABLE, INIT and the folds were accepted with a table, FINAL closes the
session. -/
theorem inv_complete {c : Command} {s : State} (hi : Inv s) (hp : s.pending = some c) : Inv (complete c s) := by
  cases c with
  | build =>
    exact inv_of_idle rfl (fun _ i => tableRead_of_table rfl i) (fun _ => rfl) hi.resultZero hi.baseAligned (bidx_le _)
      (bcnt_le _)
  | init =>
    have hv : s.tableValid = true := hi.tableCommands (.inl hp)
    exact inv_of_idle rfl hi.tableCorrect (fun _ => hv) hi.resultZero hi.baseAligned hi.bidxRange hi.bcntRange
  | fold8 b =>
    have hv : s.tableValid = true := hi.tableCommands (.inr (.inl ⟨b, hp⟩))
    exact inv_of_idle rfl hi.tableCorrect (fun _ => hv) hi.resultZero hi.baseAligned hi.bidxRange hi.bcntRange
  | foldw w =>
    have hv : s.tableValid = true := hi.tableCommands (.inr (.inr ⟨w, hp⟩))
    exact inv_of_idle rfl hi.tableCorrect (fun _ => hv) hi.resultZero hi.baseAligned hi.bidxRange hi.bcntRange
  | final =>
    exact inv_of_idle rfl hi.tableCorrect nofun nofun hi.baseAligned hi.bidxRange hi.bcntRange

/-- Accepting BUILD hides the table until it completes (R24). -/
theorem inv_acceptBuild {s : State} (hi : Inv s) : Inv (acceptBuild s) where
  busyIffPending := statusWord_busy_iff _
  tableCorrect := nofun
  sessionHasTable _ hne := absurd rfl hne
  sessionCommands := by simp [acceptBuild]
  tableCommands := by simp [acceptBuild]
  reservedZero := statusWord_and_reservedMask _
  buildHidesTable _ := rfl
  resultZero := hi.resultZero
  baseAligned := hi.baseAligned
  bidxRange := hi.bidxRange
  bcntRange := hi.bcntRange

/-- Another accepted command had the table and the session it needs. -/
theorem inv_latch {c : Command} {s : State} (hi : Inv s) (hp : s.pending = none) (hne : c ≠ .build) (hc : Admits c s) :
    Inv (latch c s) where
  busyIffPending := statusWord_busy_iff _
  tableCorrect := hi.tableCorrect
  sessionHasTable ha _ := hi.sessionHasTable ha (by simp [hp])
  sessionCommands h := by
    cases c with
    | build => exact absurd rfl hne
    | init => simp at h
    | fold8 b => exact hc.2
    | foldw w => exact hc.2
    | final => exact hc
  tableCommands h := by
    cases c with
    | build => exact absurd rfl hne
    | init => exact hc
    | fold8 b => exact hc.1
    | foldw w => exact hc.1
    | final => simp at h
  reservedZero := statusWord_and_reservedMask _
  buildHidesTable h := absurd (Option.some.inj h) hne
  resultZero := hi.resultZero
  baseAligned := hi.baseAligned
  bidxRange := hi.bidxRange
  bcntRange := hi.bcntRange

/-- Every step keeps the invariant. -/
theorem inv_step {s t : State} (hi : Inv s) (h : step s = .next t) : Inv t := by
  cases step_control h with
  | keeps h => exact inv_of_sameControl hi h
  | completes c _ hp h => exact inv_of_sameControl (inv_complete hi hp) h
  | resets _ h => exact inv_of_sameControl (inv_resetBlock hi.baseAligned) h
  | acceptsBuild _ _ h => exact inv_of_sameControl (inv_acceptBuild hi) h
  | accepts c hne hp hc h => exact inv_of_sameControl (inv_latch hi hp hne hc) h

/-- What every step keeps, every run keeps. -/
theorem run_keeps {P : State → Prop} (hstep : ∀ s t, P s → step s = .next t → P t) (n : Nat) :
    ∀ {s t : State}, P s → Sys2Proof.core.run n s = .next t → P t := by
  induction n with
  | zero =>
    intro s t hs h
    cases h
    exact hs
  | succ n ih =>
    intro s t hs h
    obtain ⟨u, hu, hr⟩ := run_succ_cases h
    exact ih (hstep s u hs hu) hr

/-- Settles O59: reset meets the invariant whatever it leaves unspecified, and `inv_step` keeps it. -/
theorem reachableStatesMeetTheInvariant : Obligations.ReachableStatesMeetTheInvariant := by
  unfold Obligations.ReachableStatesMeetTheInvariant
  intro base n turns table bidx bcnt bacc t hbase hrun
  refine run_keeps (fun _ _ => inv_step) n ?_ hrun
  exact inv_of_idle rfl nofun nofun (fun _ => rfl) hbase (bidx_le bidx) (bcnt_le bcnt)

/-! ### The writers of TABLE_VALID, ACTIVE, RESULT and RESULT_VALID -/

/-- A core turn completes what is pending. -/
theorem step_core_pending {c : Command} {s : State} (hp : s.pending = some c) :
    step (onTurn .core s) = .next (complete c s) := by
  rw [step_onTurn, runTurn_core, coreStep_pending hp]

theorem step_reset (s : State) : step (onTurn .reset s) = .next (resetBlock s) := rfl

/-- A BUILD word is accepted whenever nothing is pending (40_table_builder.md R100). -/
theorem step_build {s : State} (hp : s.pending = none) :
    step (onTurn (cmdTurn s.base 0x00001000#32) s) = .next (acceptBuild s) := by
  have hcmd : cmdError 0x00001000#32 s = none := by simp [cmdError, hp, validWord]
  rw [step_cmdWrite, cmdOutcome_of_none hcmd]
  rfl

/-- Only BUILD's completion changes TABLE_VALID. -/
theorem complete_tableValid {c : Command} (hc : c ≠ .build) (s : State) : (complete c s).tableValid = s.tableValid := by
  cases c with
  | build => exact absurd rfl hc
  | init => rfl
  | fold8 b => rfl
  | foldw w => rfl
  | final => rfl

/-- Settles O41: of the five control steps only reset, an accepted BUILD and its completion touch TABLE_VALID. -/
theorem tableValidChangesOnlyByBuildOrReset : Obligations.TableValidChangesOnlyByBuildOrReset := by
  unfold Obligations.TableValidChangesOnlyByBuildOrReset
  refine ⟨fun s t hst hne => ?_, fun s => ⟨_, step_reset s, rfl⟩, fun s hp => ⟨_, step_build hp, rfl⟩,
    fun s hp => ⟨_, step_core_pending hp, rfl⟩, fun s t hi hst => (inv_step hi hst).tableCorrect⟩
  cases step_control hst with
  | keeps h => exact absurd h.tableValid hne
  | completes c hcore hp h =>
    by_cases hc : c = .build
    · subst hc
      exact .inr (.inr ⟨hcore, hp, h.pending, h.tableValid⟩)
    · exact absurd (h.tableValid.trans (complete_tableValid hc s)) hne
  | resets hr h => exact .inl ⟨hr, h.tableValid⟩
  | acceptsBuild hw hp h => exact .inr (.inl ⟨hw, hp, h.pending, h.tableValid⟩)
  | accepts c _ _ _ h => exact absurd h.tableValid hne

/-- Settles O42: of the five control steps only reset and two completions touch ACTIVE. -/
theorem activeChangesOnlyByInitFinalReset : Obligations.ActiveChangesOnlyByInitFinalReset := by
  unfold Obligations.ActiveChangesOnlyByInitFinalReset
  refine ⟨fun s t hst hne => ?_, fun s hp => ⟨_, step_core_pending hp, rfl⟩, fun s hp => ⟨_, step_core_pending hp, rfl⟩,
    fun s => ⟨_, step_reset s, rfl⟩⟩
  cases step_control hst with
  | keeps h => exact absurd h.active hne
  | completes c hcore hp h =>
    cases c with
    | build => exact absurd h.active hne
    | init => exact .inl ⟨hcore, hp, h.active⟩
    | fold8 b => exact absurd h.active hne
    | foldw w => exact absurd h.active hne
    | final => exact .inr (.inl ⟨hcore, hp, h.active⟩)
  | resets hr h => exact .inr (.inr ⟨hr, h.active⟩)
  | acceptsBuild _ _ h => exact absurd h.active hne
  | accepts c _ _ _ h => exact absurd h.active hne

/-- A write to RESULT is ignored (R30, 42_control.md R137). -/
theorem step_resultWrite (s : State) (v : Word) : step (onTurn (writeTurn s.base 0x0C v) s) = .next s := by
  rw [step_onTurn, runTurn_write rfl (by decide) (by decide) (by decide)]
  rfl

/-- Settles O43: of the five control steps only reset and the completion of FINAL touch RESULT and RESULT_VALID. -/
theorem resultChangesOnlyAtFinalOrReset : Obligations.ResultChangesOnlyAtFinalOrReset := by
  unfold Obligations.ResultChangesOnlyAtFinalOrReset
  refine ⟨fun s t hst => ?_, fun s hp => ⟨_, step_core_pending hp, rfl, rfl⟩, fun s => ⟨_, step_reset s, rfl, rfl⟩,
    step_resultWrite⟩
  cases step_control hst with
  | keeps h => exact .inl ⟨h.result, h.resultValid⟩
  | completes c hcore hp h =>
    cases c with
    | build => exact .inl ⟨h.result, h.resultValid⟩
    | init => exact .inl ⟨h.result, h.resultValid⟩
    | fold8 b => exact .inl ⟨h.result, h.resultValid⟩
    | foldw w => exact .inl ⟨h.result, h.resultValid⟩
    | final => exact .inr (.inl ⟨hcore, hp, h.result, h.resultValid⟩)
  | resets hr h => exact .inr (.inr ⟨hr, h.result, h.resultValid⟩)
  | acceptsBuild _ _ h => exact .inl ⟨h.result, h.resultValid⟩
  | accepts c _ _ _ h => exact .inl ⟨h.result, h.resultValid⟩

end Sys2Proof.Machine
end

section
/-! PROOF. The error bits are sticky and block nothing (10_state.md R27). -/

namespace Sys2Proof.Machine

@[simp] theorem errorBit_raised (e e' : InterfaceError) (s : State) :
    errorBit e (raised e' s) = (errorBit e s || decide (e' = e)) := by
  rw [← raise_eq_raised, errorBit_raise]

@[simp] theorem raised_base (e : InterfaceError) (s : State) : (raised e s).base = s.base := by
  rw [← raise_eq_raised, raise_base]

@[simp] theorem raised_pending (e : InterfaceError) (s : State) : (raised e s).pending = s.pending := by
  rw [← raise_eq_raised, raise_pending]

/-- The check order does not look at the error bits. -/
theorem cmdError_raised (w : Word) (e : InterfaceError) (s : State) : cmdError w (raised e s) = cmdError w s := by
  rw [← raise_eq_raised]
  rfl

/-- A completion does not look at the error bits. -/
theorem complete_raised (c : Command) (e : InterfaceError) (s : State) :
    complete c (raised e s) = raised e (complete c s) := by
  rw [← raise_eq_raised, ← raise_eq_raised]
  cases c with
  | build => rfl
  | init => rfl
  | fold8 b => rfl
  | foldw w => rfl
  | final => rfl

/-- An error bit that is 1 stays 1, but for reset and a STATUS write that names it. -/
theorem errorBit_step {s t : State} {e : InterfaceError} (h : step s = .next t) (he : errorBit e s = true) :
    errorBit e t = true ∨ resetActs s ∨ ∃ v, hostWrites 0x04 v s ∧ v.getLsbD (errorCode e) = true := by
  rcases step_next h with ⟨-, ts, rfl⟩ | ⟨hr, -⟩ | ⟨-, ts, -, rfl⟩ | ⟨v, ts, rfl⟩ | ⟨w, ts, u, -, rfl, hs⟩ |
    ⟨off, v, ts, -, hw, rfl⟩
  · exact .inl (by simpa using he)
  · exact .inr (.inl hr)
  · exact .inl (by simpa using he)
  · exact .inl (by simpa using he)
  · exact .inl (by simpa using errorBit_submitWord hs he)
  · rcases errorBit_writeReg off v he with he' | ⟨rfl, hv⟩
    · exact .inl (by simpa using he')
    · exact .inr (.inr ⟨v, hw, hv⟩)

/-- Settles O45: `errorBit_step` is stickiness, and neither the check order nor a completion looks at an error bit. -/
theorem errorBitsAreSticky : Obligations.ErrorBitsAreSticky := by
  unfold Obligations.ErrorBitsAreSticky
  simp only [statusWord_errorCode]
  refine ⟨fun s t e h he => errorBit_step h he, fun s w e hcmd => ⟨_, step_cmdWrite w s, ?_⟩,
    fun s v => ⟨_, step_statusWrite s v, fun e => errorBit_clearErrors e v s⟩, fun s w e => ?_, fun s c e hp => ?_,
    fun s => ⟨_, step_reset s, fun e => errorBit_resetBlock e s⟩⟩
  · rw [cmdOutcome_of_some hcmd]
    simp
  · have hstep := step_cmdWrite w (raised e s)
    rw [raised_base] at hstep
    cases hcmd : cmdError w s with
    | some e' => rw [hstep, cmdOutcome_of_some (by rw [cmdError_raised, hcmd])]
    | none => rw [hstep, cmdOutcome_of_none (by rw [cmdError_raised, hcmd])]
  · rw [step_core_pending (by rw [raised_pending, hp]), complete_raised]

end Sys2Proof.Machine
end

section
/-! PROOF. BUSY through the host's accesses, the bytes of a word, and the accesses the block does not define
(20_memory.md R54, R56, R62). -/

namespace Sys2Proof.Machine

/-! ### BUSY until the completion (R62) -/

/-- A completion empties PENDING (42_control.md R131). -/
@[simp] theorem complete_pending (c : Command) (s : State) : (complete c s).pending = none := by
  cases c with
  | build => exact completeBuild_pending s
  | init => exact completeInit_pending s
  | fold8 b => exact completeFold8_pending b s
  | foldw w => exact completeFoldw_pending w s
  | final => exact completeFinal_pending s

/-- However many accesses the host makes, a pending command stays pending. -/
theorem runTurns_host_pending {c : Command} {t : State} (accesses : List Access) :
    ∀ {s : State}, s.pending = some c → runTurns (accesses.map Turn.host) s = .next t → t.pending = some c := by
  induction accesses with
  | nil =>
    intro s hp h
    cases h
    exact hp
  | cons a accesses ih =>
    intro s hp h
    obtain ⟨u, hfirst, hrest⟩ := runTurns_cons_cases h
    obtain ⟨hu, -⟩ := hostAccess_busy hp hfirst
    exact ih hu hrest

/-- A STATUS read returns the status word and changes nothing of the block. -/
theorem step_statusRead (s : State) : step (onTurn (readTurn s.base 0x04) s) = .next (logRead (statusWord s) s) := by
  rw [step_onTurn, runTurn_read rfl (by decide) (by decide), readReg_status]

/-- Settles O49, by induction on the host's accesses (`runTurns_host_pending`); BUSY is computed from PENDING. -/
theorem busyReadsOneUntilCompletion : Obligations.BusyReadsOneUntilCompletion := by
  unfold Obligations.BusyReadsOneUntilCompletion
  intro s t c accesses hp hrun
  have ht : t.pending = some c := runTurns_host_pending accesses hp hrun
  have hbusy : (statusWord t).getLsbD 0 = true := (statusWord_busy_iff t).mpr (by simp [ht])
  have hdone : (statusWord (complete c t)).getLsbD 0 = false :=
    Bool.eq_false_iff.mpr fun h => (statusWord_busy_iff _).mp h (complete_pending c t)
  exact ⟨ht, ⟨_, _, step_statusRead t, rfl, hbusy⟩, ⟨_, step_core_pending ht, rfl, hdone⟩⟩

/-! ### The bytes of a word (R56) -/

theorem byteOf_toNat (w : Word) (k : Nat) : (byteOf w k).toNat = w.toNat / 2 ^ (8 * k) % 256 := by
  simp only [byteOf, BitVec.extractLsb'_toNat, Nat.shiftRight_eq_div_pow]

theorem wordOfBytes_toNat (b0 b1 b2 b3 : Byte) :
    (wordOfBytes b0 b1 b2 b3).toNat = b3.toNat * 16777216 + b2.toNat * 65536 + b1.toNat * 256 + b0.toNat := by
  simp only [wordOfBytes, BitVec.toNat_append]
  rw [shiftLeft_or_eq _ _ 8 (by omega), shiftLeft_or_eq _ _ 8 (by omega), shiftLeft_or_eq _ _ 8 (by omega)]
  omega

/-- Taking a word apart undoes putting it together: each byte is a digit to base 256. -/
theorem wordBytes_wordOfBytes (b0 b1 b2 b3 : Byte) : wordBytes (wordOfBytes b0 b1 b2 b3) = [b0, b1, b2, b3] := by
  have hbyte (k : Nat) (b : Byte)
      (h : (b3.toNat * 16777216 + b2.toNat * 65536 + b1.toNat * 256 + b0.toNat) / 2 ^ (8 * k) % 256 = b.toNat) :
      byteOf (wordOfBytes b0 b1 b2 b3) k = b :=
    BitVec.eq_of_toNat_eq (by rw [byteOf_toNat, wordOfBytes_toNat, h])
  rw [wordBytes, hbyte 0 b0 (by omega), hbyte 1 b1 (by omega), hbyte 2 b2 (by omega), hbyte 3 b3 (by omega)]

/-- FOLDW's four fold steps are the fold over the word's bytes in sequence order. -/
theorem foldWord_eq_foldl (s : State) (acc w : Word) : foldWord s acc w = (wordBytes w).foldl (foldStep s) acc := rfl

/-- Settles O26: a word is its four digits to base 256, and FOLDW folds along `wordBytes`. -/
theorem wordBytesAreLittleEndian : Obligations.WordBytesAreLittleEndian := by
  unfold Obligations.WordBytesAreLittleEndian
  exact ⟨fun w => rfl, wordBytes_wordOfBytes,
    fun s w hp => ⟨_, step_core_pending hp, foldWord_eq_foldl s s.acc w⟩⟩

/-! ### Accesses that are not defined (R54) -/

theorem not_supported {off width : Nat} (h : width ≠ 4 ∨ off % 4 ≠ 0) : supported off width = false := by
  unfold supported
  rcases h with hwidth | halign
  · rw [decide_eq_false hwidth, Bool.false_and]
  · rw [decide_eq_false halign, Bool.and_false]

/-- An access inside the window that is not defined is the fault, whether it reads or writes. -/
theorem hostAccess_unsupported {a : Access} {s : State} {off : Nat} (hoff : windowOffset s.base a.addr = some off)
    (h : supported off a.width = false) : hostAccess a s = .fault .busUnsupported := by
  simp [hostAccess, hoff, h]

/-- Settles O38: `hostAccess_unsupported`, for a read and for a write. -/
theorem unsupportedAccessesFault : Obligations.UnsupportedAccessesFault := by
  unfold Obligations.UnsupportedAccessesFault
  intro s off width v hin hbad
  have hoff : windowOffset s.base (s.base + off) = some off := windowOffset_add s.base (by omega)
  exact ⟨hostAccess_unsupported hoff (not_supported hbad), hostAccess_unsupported hoff (not_supported hbad)⟩

end Sys2Proof.Machine
end

section
/-! PROOF. The valid words are the words of the six commands (30_encoding.md R74, R75). -/

namespace Sys2Proof.Machine

/-- A row with the full mask holds its pattern only. -/
theorem eq_of_fits_fullMask {name : String} {p w : Word} (h : (Row.mk name p 0xFFFFFFFF#32).fits w = true) : w = p :=
  BitVec.and_allOnes.symm.trans (beq_iff_eq.mp h)

/-- FOLD8's row leaves the operand byte free (R74). -/
theorem exists_fold8_of_fits {b : Byte} {w : Word} (h : (Instr.fold8 b).row.fits w = true) :
    ∃ b', encode (.fold8 b') = w := by
  obtain ⟨rsvh, op, rsvm, b', rfl⟩ := exists_fields w
  have hm : (0xFFFFFF00#32 : Word) = formatC (BitVec.allOnes 16) (BitVec.allOnes 4) (BitVec.allOnes 4) 0#8 := by decide
  have hp : (0x00003000#32 : Word) = formatC 0#16 3#4 0#4 0#8 := by decide
  simp only [Row.fits, Instr.row, hm, hp, formatC_and, beq_iff_eq, formatC_inj, BitVec.and_allOnes] at h
  obtain ⟨rfl, rfl, rfl, -⟩ := h
  exact ⟨b', rfl⟩

/-- The first six rows of the opcode table hold exactly the words of the commands (R74). -/
theorem fits_commandRow_iff (w : Word) :
    (∃ r ∈ opcodeTable.take 6, r.fits w = true) ↔ ∃ i, isCommand i = true ∧ encode i = w := by
  constructor
  · rintro ⟨r, hr, hfits⟩
    simp only [opcodeTable, List.take_succ_cons, List.take_zero, List.mem_cons, List.not_mem_nil, or_false] at hr
    rcases hr with rfl | rfl | rfl | rfl | rfl | rfl
    · exact ⟨.nop, rfl, (eq_of_fits_fullMask hfits).symm⟩
    · exact ⟨.build, rfl, (eq_of_fits_fullMask hfits).symm⟩
    · exact ⟨.init, rfl, (eq_of_fits_fullMask hfits).symm⟩
    · obtain ⟨b, hb⟩ := exists_fold8_of_fits hfits
      exact ⟨.fold8 b, rfl, hb⟩
    · exact ⟨.foldw, rfl, (eq_of_fits_fullMask hfits).symm⟩
    · exact ⟨.final, rfl, (eq_of_fits_fullMask hfits).symm⟩
  · rintro ⟨i, hi, rfl⟩
    cases i with
    | nop => exact ⟨Instr.nop.row, by decide, Laws.OpcodeRow.nop rfl⟩
    | build => exact ⟨Instr.build.row, by decide, Laws.OpcodeRow.build rfl⟩
    | init => exact ⟨Instr.init.row, by decide, Laws.OpcodeRow.init rfl⟩
    | fold8 b => exact ⟨(Instr.fold8 0).row, by decide, Laws.OpcodeRow.fold8 b rfl⟩
    | foldw => exact ⟨Instr.foldw.row, by decide, Laws.OpcodeRow.foldw rfl⟩
    | final => exact ⟨Instr.final.row, by decide, Laws.OpcodeRow.final rfl⟩
    | reservedOp67 _ _ _ _ => cases hi
    | reservedOp8F _ _ _ _ => cases hi

/-- A command's word meets the formula `valid`. -/
theorem validWord_encode {i : Instr} (hi : isCommand i = true) : validWord (encode i) = true := by
  cases i with
  | nop => decide
  | build => decide
  | init => decide
  | fold8 b => simp [encode, validWord_formatC]
  | foldw => decide
  | final => decide
  | reservedOp67 _ _ _ _ => cases hi
  | reservedOp8F _ _ _ _ => cases hi

/-- A valid word decodes, and to a command. -/
theorem validWord_iff_decode (w : Word) : validWord w = true ↔ ∃ i, decode w = .ok i ∧ isCommand i = true := by
  constructor
  · intro hv
    cases hd : decode w with
    | error e => simp [validWord_of_decode_error hd] at hv
    | ok i => exact ⟨i, rfl, (decode_ok hd).2.symm.trans hv⟩
  · rintro ⟨i, hd, hi⟩
    exact (decode_ok hd).2.trans hi

theorem validWord_iff_encode (w : Word) : validWord w = true ↔ ∃ i, isCommand i = true ∧ encode i = w := by
  constructor
  · intro hv
    obtain ⟨i, hd, hi⟩ := (validWord_iff_decode w).mp hv
    exact ⟨i, hi, (decode_ok hd).1⟩
  · rintro ⟨i, hi, rfl⟩
    exact validWord_encode hi

/-- An invalid word raises ERR_BADCMD while nothing is pending: it is the second check of R130. -/
theorem cmdError_of_invalid {w : Word} {s : State} (hv : validWord w = false) (hp : s.pending = none) :
    cmdError w s = some .errBadcmd := by
  simp [cmdError, hp, hv]

/-- Settles O4: a valid word decodes to a command (`validWord_iff_decode`), the first six rows hold exactly the commands'
words (`fits_commandRow_iff`), and a CMD write follows the check order (`step_cmdWrite`). -/
theorem validWordsAreTheSixCommands : Obligations.ValidWordsAreTheSixCommands := by
  unfold Obligations.ValidWordsAreTheSixCommands
  refine ⟨validWord_iff_decode, fun w => (validWord_iff_encode w).trans (fits_commandRow_iff w).symm, fun w s hv hp => ?_⟩
  rw [step_cmdWrite, cmdOutcome_of_some (cmdError_of_invalid hv hp)]
  rfl

end Sys2Proof.Machine
end

section
/-! PROOF. The table function is linear over XOR (40_table_builder.md R101 to R107). -/

namespace Sys2Proof.Machine

/-! ### The reflection step and the table function (R101, R102) -/

/-- The reflection step as one XOR: the polynomial comes in exactly if bit 0 is shifted out. -/
theorem reflStep_eq_xor (a : Word) : reflStep a = (if a.getLsbD 0 then polynomial else 0#32) ^^^ (a >>> 1) := by
  unfold reflStep
  split <;> simp

/-- Settles O18: both are the model's definitions, with the constant and the eight steps written out. -/
theorem tableFunctionIsEightReflections : Obligations.TableFunctionIsEightReflections :=
  ⟨fun _ => rfl, fun _ => rfl⟩

/-- Settles O21, by running the eight steps on both indices. -/
theorem tableEntriesZeroAndOne : Obligations.TableEntriesZeroAndOne := by
  unfold Obligations.TableEntriesZeroAndOne
  decide

/-! ### Linearity (R107) -/

/-- Whether the polynomial comes in is itself linear in bit 0, and so is the shift. -/
theorem reflStep_xor (a c : Word) : reflStep (a ^^^ c) = reflStep a ^^^ reflStep c := by
  simp only [reflStep_eq_xor, BitVec.getLsbD_xor, BitVec.ushiftRight_xor_distrib]
  have hpoly : (if (a.getLsbD 0 ^^ c.getLsbD 0) = true then polynomial else 0#32) =
      (if a.getLsbD 0 = true then polynomial else 0#32) ^^^ (if c.getLsbD 0 = true then polynomial else 0#32) := by
    cases a.getLsbD 0 <;> cases c.getLsbD 0 <;> decide
  rw [hpoly]
  ac_rfl

theorem reflTimes_xor (n : Nat) : ∀ a c : Word, reflTimes n (a ^^^ c) = reflTimes n a ^^^ reflTimes n c := by
  induction n with
  | zero => exact fun _ _ => rfl
  | succ n ih =>
    intro a c
    simp only [reflTimes, reflStep_xor, ih]

theorem tableFn_xor (i j : Byte) : tableFn (i ^^^ j) = tableFn i ^^^ tableFn j := by
  simp only [tableFn, zextByte, BitVec.setWidth_xor, reflTimes_xor]

theorem tableFn_zero : tableFn 0#8 = 0#32 := tableEntriesZeroAndOne.1

/-! ### A byte as the XOR of its set bits -/

/-- The byte with at most bit `k` set, as in `i`. -/
def bitAt (i : Byte) (k : Nat) : Byte := if i.getLsbD k then 1#8 <<< k else 0#8

theorem getLsbD_bitAt (i : Byte) (k j : Nat) : (bitAt i k).getLsbD j = (decide (j = k) && i.getLsbD j) := by
  unfold bitAt
  by_cases hjk : j = k
  · subst hjk
    cases hi : i.getLsbD j with
    | false => simp
    | true => simp [BitVec.lt_of_getLsbD hi]
  · have hshift : (1#8 <<< k).getLsbD j = false := by
      rw [← BitVec.twoPow_eq, BitVec.getLsbD_twoPow]
      simp [Ne.symm hjk]
    split <;> simp [hjk, hshift]

theorem tableFn_bitAt (i : Byte) (k : Nat) :
    tableFn (bitAt i k) = if i.getLsbD k = true then tableFn (1#8 <<< k) else 0#32 := by
  unfold bitAt
  split
  · rfl
  · exact tableFn_zero

/-- The XOR of the lowest `n` bits holds exactly those bits. -/
theorem getLsbD_xor_bits (i : Byte) (n j : Nat) :
    ((List.range n).foldl (fun a k => a ^^^ bitAt i k) 0#8).getLsbD j = (decide (j < n) && i.getLsbD j) := by
  induction n with
  | zero => simp
  | succ n ih =>
    rw [List.range_succ, List.foldl_append, List.foldl_cons, List.foldl_nil, BitVec.getLsbD_xor, ih, getLsbD_bitAt]
    by_cases h : j = n
    · simp [h]
    · have hlt : j < n + 1 ↔ j < n := by omega
      simp [h, hlt]

/-- A byte is the XOR of its set bits. -/
theorem xor_bits (i : Byte) : (List.range 8).foldl (fun a k => a ^^^ bitAt i k) 0#8 = i := by
  apply BitVec.eq_of_getLsbD_eq
  intro j hj
  rw [getLsbD_xor_bits]
  simp [hj]

/-- `T` maps the XOR of the set bits to the XOR of their entries. -/
theorem tableFn_eq_xor_bits (i : Byte) :
    tableFn i = (List.range 8).foldl (fun a k => a ^^^ if i.getLsbD k = true then tableFn (1#8 <<< k) else 0#32) 0#32 := by
  have hom := List.foldl_hom (l := List.range 8) (init := 0#8) tableFn (g₁ := fun a k => a ^^^ bitAt i k)
    (g₂ := fun a k => a ^^^ if i.getLsbD k = true then tableFn (1#8 <<< k) else 0#32)
    (fun a k => by rw [tableFn_xor, tableFn_bitAt])
  rw [tableFn_zero, xor_bits] at hom
  exact hom.symm

/-- Settles O22: XOR passes through each reflection, so through `T`, and a byte is the XOR of its set bits. -/
theorem tableFunctionIsLinear : Obligations.TableFunctionIsLinear :=
  ⟨reflStep_xor, tableFn_xor, tableFn_zero, by decide, tableFn_eq_xor_bits⟩

end Sys2Proof.Machine
end

section
/-! PROOF. BUILD at acceptance and at completion (40_table_builder.md R100, R104). -/

namespace Sys2Proof.Machine

/-! ### Acceptance -/

/-- BUILD needs neither table nor session. -/
theorem exec_build (s : State) : exec .build s = submit false false acceptBuild s := rfl

theorem exec_build_idle {s : State} (hp : s.pending = none) : exec .build s = .next (acceptBuild s) :=
  submit_accepts (effect := acceptBuild) hp nofun nofun

theorem exec_build_busy {s : State} (hp : s.pending ≠ none) : exec .build s = .next { s with errBusy := true } := by
  rw [exec_build, submit_busy hp, raise_eq_busy]

/-- A valid word of a command without an operand has no field but its opcode (30_encoding.md R72, R75). -/
theorem eq_of_valid_bare {w : Word} (hv : validWord w = true) (h3 : opOf w ≠ 3#4) : w = formatC 0#16 (opOf w) 0#4 0#8 := by
  obtain ⟨rsvh, op, rsvm, b, rfl⟩ := exists_fields w
  rw [opOf_formatC] at h3 ⊢
  obtain ⟨hh, hm, -, hb⟩ : rsvh = 0#16 ∧ rsvm = 0#4 ∧ op.toNat ≤ 5 ∧ b = 0#8 := by
    simpa [validWord_formatC, h3, and_assoc] using hv
  rw [hh, hm, hb]

/-- Any other word with the opcode of such a command raises ERR_BADCMD while nothing is pending (42_control.md R130). -/
theorem step_bare_badcmd {s : State} {w : Word} (hp : s.pending = none) (h3 : opOf w ≠ 3#4)
    (hne : w ≠ formatC 0#16 (opOf w) 0#4 0#8) :
    step (onTurn (cmdTurn s.base w) s) = .next { s with errBadcmd := true } := by
  have hv : validWord w = false := Bool.eq_false_iff.mpr fun hv => hne (eq_of_valid_bare hv h3)
  rw [step_cmdWrite, cmdOutcome_of_some (cmdError_of_invalid hv hp)]
  rfl

/-- An accepted BUILD hides the table: TDATA reads 0 (10_state.md R24, R32). -/
theorem tdata_acceptBuild (s : State) : tdata (acceptBuild s) = 0#32 := rfl

/-! ### Completion -/

/-- A completed BUILD leaves `T` at every index (40_table_builder.md R100, R104). -/
theorem tableRead_completeBuild (i : Byte) (s : State) : tableRead i (completeBuild s) = tableFn i :=
  tableRead_of_table rfl i

/-- A valid complete table reads `T(TIDX)` (10_state.md R32). -/
theorem tdata_of_table {s : State} (hv : s.tableValid = true) (ht : s.table = crcTable) : tdata s = tableFn s.tidx := by
  rw [tdata, if_pos hv, tableRead_of_table ht]

/-- A core turn with nothing pending does nothing (log entry 3). -/
theorem step_core_idle {s : State} (hp : s.pending = none) : step (onTurn .core s) = .next s := by
  rw [step_onTurn, runTurn_core, coreStep_idle hp]

/-- BUILD and its completion, one after the other. -/
theorem runTurns_build {s : State} (hp : s.pending = none) :
    runTurns [cmdTurn s.base 0x00001000#32, .core] s = .next (completeBuild (acceptBuild s)) := by
  have haccept : runTurn (cmdTurn s.base 0x00001000#32) s = .next (acceptBuild s) := step_build hp
  have hcomplete : runTurn .core (acceptBuild s) = .next (completeBuild (acceptBuild s)) := rfl
  rw [runTurns_cons _ haccept, runTurns_cons _ hcomplete, runTurns_nil]

/-- A table that holds `T` already is written with the same values. -/
theorem completeBuild_table_eq {s t : State} (h : ∀ i, tableRead i s = tableFn i) : (completeBuild t).table = s.table :=
  table_ext fun i => (tableRead_completeBuild i t).trans (h i).symm

/-- Settles O20: both core turns complete the BUILD, and every completed BUILD leaves the one complete table. -/
theorem buildIsDeterministic : Obligations.BuildIsDeterministic := by
  unfold Obligations.BuildIsDeterministic
  intro s s' t t' hp hp' ht ht'
  rw [step_core_pending hp] at ht
  rw [step_core_pending hp'] at ht'
  cases ht
  cases ht'
  exact ⟨rfl, fun i => tableRead_completeBuild i s⟩

/-! ### The rule's example -/

/-- While the complete table is valid, the host reads `T` of the index it has written to TIDX (10_state.md R32). -/
theorem runTurns_readEntry {s : State} (hv : s.tableValid = true) (ht : s.table = crcTable) (v : Word) :
    runTurns [writeTurn s.base 0x10 v, readTurn s.base 0x14] s =
      .next (logRead (tableFn (byteOf v 0)) (writeTidx v s)) := by
  have hwrite : runTurn (writeTurn s.base 0x10 v) s = .next (writeTidx v s) :=
    runTurn_write rfl (by decide) (by decide) (by decide) v
  have hread : runTurn (readTurn s.base 0x14) (writeTidx v s) = .next (logRead (tdata (writeTidx v s)) (writeTidx v s)) :=
    runTurn_read rfl (by decide) (by decide)
  rw [runTurns_cons _ hwrite, runTurns_cons _ hread, runTurns_nil,
    tdata_of_table (s := writeTidx v s) hv ht, writeTidx_tidx]

/-- BUILD, its completion, `TIDX <- v` and a read of TDATA. -/
theorem runTurns_build_readEntry {s : State} (hp : s.pending = none) (v : Word) :
    runTurns [cmdTurn s.base 0x00001000#32, .core, writeTurn s.base 0x10 v, readTurn s.base 0x14] s =
      .next (logRead (tableFn (byteOf v 0)) (writeTidx v (completeBuild (acceptBuild s)))) :=
  (runTurns_append _ (runTurns_build hp)).trans (runTurns_readEntry rfl rfl v)

/-- Settles O12: acceptance (`exec_build_idle`), completion (`tableRead_completeBuild` and its frame), the two errors, the
rewritten table (`completeBuild_table_eq`) and the rule's example. -/
theorem buildFillsTheTable : Obligations.BuildFillsTheTable := by
  unfold Obligations.BuildFillsTheTable
  refine ⟨fun s hp => ⟨exec_build_idle hp, step_build hp⟩, fun s hp => ⟨_, step_core_pending hp, ?_⟩,
    fun s hp => ⟨_, exec_build_idle hp, tdata_acceptBuild s⟩, fun s _ => ⟨_, step_reset s, rfl, step_core_idle rfl⟩,
    fun s hp => exec_build_busy hp, fun s w hp hop hne => ?_, fun s hi hp hv => ⟨_, runTurns_build hp, ?_⟩,
    ⟨_, runTurns_build_readEntry (s := State.reset) rfl 1#32, ?_, by decide⟩⟩
  · exact ⟨fun i => tableRead_completeBuild i s, rfl, rfl, rfl, rfl, rfl,
      rfl, rfl, rfl, rfl, rfl, rfl, rfl, rfl, rfl, rfl⟩
  · have hop : opOf w = 1#4 := hop
    exact step_bare_badcmd hp (by simp [hop]) (by rw [hop]; exact hne)
  · exact ⟨completeBuild_table_eq (hi.tableCorrect hv), rfl, rfl, rfl⟩
  · exact congrArg (· :: []) tableEntriesZeroAndOne.2

end Sys2Proof.Machine
end

section
/-! PROOF. A command of the host's at acceptance: its word decodes to it, and `exec` accepts it or raises the first error of
the check order (42_control.md R130; 41_hasher.md R113 to R116). -/

namespace Sys2Proof.Machine

/-! ### The words of the commands -/

theorem decode_encode_of_isCommand {i : Instr} (hi : isCommand i = true) : decode (encode i) = .ok i := by
  cases i with
  | nop => decide
  | build => decide
  | init => decide
  | fold8 b => exact decode_formatC 0#16 3#4 0#4 b
  | foldw => decide
  | final => decide
  | reservedOp67 _ _ _ _ => cases hi
  | reservedOp8F _ _ _ _ => cases hi

/-- The host's write of a command's word runs the command. -/
theorem runTurn_encode {i : Instr} {base : Nat} {s : State} (hi : isCommand i = true) (hb : s.base = base) :
    runTurn (cmdTurn base (encode i)) s = exec i s := by
  rw [runTurn_cmd hb, submitWord, decode_encode_of_isCommand hi]

theorem step_encode {i : Instr} (hi : isCommand i = true) (s : State) :
    step (onTurn (cmdTurn s.base (encode i)) s) = exec i s :=
  runTurn_encode hi rfl

/-- FOLD8's word is its pattern with the operand byte in the low bits (30_encoding.md R72, R74). -/
theorem encode_fold8 (b : Byte) : encode (.fold8 b) = 0x00003000#32 ||| b.setWidth 32 := by
  apply BitVec.eq_of_toNat_eq
  have hor : 0x3000 ||| b.toNat = 0x3000 + b.toNat := shiftLeft_or_eq 0x30 b.toNat 8 b.isLt
  have hb : b.toNat % 4294967296 = b.toNat := Nat.mod_eq_of_lt (by omega)
  simp [encode, formatC_toNat, hor, hb]

/-! ### Errors -/

/-- While a command is pending every command raises ERR_BUSY, the first check of R130. -/
theorem exec_busy (i : Instr) {s : State} (hp : s.pending ≠ none) : exec i s = .next { s with errBusy := true } := by
  rw [← raise_eq_busy]
  cases i with
  | nop => exact submit_busy hp
  | build => exact submit_busy (effect := acceptBuild) hp
  | init => exact submit_busy hp
  | fold8 b => exact submit_busy hp
  | foldw => exact submit_busy hp
  | final => exact submit_busy hp
  | reservedOp67 _ _ _ _ => exact (rejectWord_eq s).trans (by rw [if_neg hp])
  | reservedOp8F _ _ _ _ => exact (rejectWord_eq s).trans (by rw [if_neg hp])

section
variable {effect : State → State} {s : State} (hp : s.pending = none)
include hp

/-- A command that needs the table raises ERR_NOTABLE without one. -/
theorem submit_noTable (needsSession : Bool) (hv : s.tableValid = false) :
    submit true needsSession effect s = .next { s with errNotable := true } := by
  rw [← raise_eq_notable]
  simp [submit, busy, hp, hv]

/-- A command that needs a session, and has its table if it needs one, raises ERR_SEQ without a session. -/
theorem submit_noSession {needsTable : Bool} (hv : needsTable = true → s.tableValid = true) (ha : s.active = false) :
    submit needsTable true effect s = .next { s with errSeq := true } := by
  rw [← raise_eq_seq]
  cases needsTable with
  | false => simp [submit, busy, hp, ha]
  | true => simp [submit, busy, hp, hv rfl, ha]

/-- An invalid word raises ERR_BADCMD. -/
theorem step_invalid {w : Word} (hw : validWord w = false) :
    step (onTurn (cmdTurn s.base w) s) = .next { s with errBadcmd := true } := by
  rw [step_cmdWrite, cmdOutcome_of_some (cmdError_of_invalid hw hp)]
  rfl

/-! ### Acceptance -/

theorem exec_nop_idle : exec .nop s = .next s :=
  submit_accepts (effect := id) hp nofun nofun

theorem exec_init_idle (hv : s.tableValid = true) : exec .init s = .next (latch .init s) :=
  submit_accepts hp (fun _ => hv) nofun

theorem exec_fold8_idle (hv : s.tableValid = true) (ha : s.active = true) (b : Byte) :
    exec (.fold8 b) s = .next (latch (.fold8 b) s) :=
  submit_accepts (effect := latch (.fold8 b)) hp (fun _ => hv) (fun _ => ha)

/-- FOLDW latches DATA (30_encoding.md R73). -/
theorem exec_foldw_idle (hv : s.tableValid = true) (ha : s.active = true) :
    exec .foldw s = .next (latch (.foldw s.data) s) :=
  submit_accepts (effect := fun s => latch (.foldw s.data) s) hp (fun _ => hv) (fun _ => ha)

theorem exec_final_idle (ha : s.active = true) : exec .final s = .next (latch .final s) :=
  submit_accepts hp nofun (fun _ => ha)

end

/-! ### Acceptance and completion -/

/-- A core turn completes what was just latched. -/
theorem runTurn_core_pending {c : Command} {s : State} (hp : s.pending = some c) :
    runTurn .core s = .next (complete c s) :=
  step_core_pending hp

/-- A command that is accepted and, by the core's next turn, completed. -/
theorem runTurns_command {i : Instr} {base : Nat} {s u : State} {c : Command} (hi : isCommand i = true)
    (hb : s.base = base) (he : exec i s = .next u) (hp : u.pending = some c) (rest : List Turn) :
    runTurns (cmdTurn base (encode i) :: .core :: rest) s = runTurns rest (complete c u) := by
  have haccept : runTurn (cmdTurn base (encode i)) s = .next u := (runTurn_encode hi hb).trans he
  rw [runTurns_cons _ haccept, runTurns_cons _ (runTurn_core_pending hp)]

end Sys2Proof.Machine
end

section
/-! PROOF. The fold step and the reference hash: R110, R111, R119, R122 of 41_hasher.md. -/

namespace Sys2Proof.Machine

/-! ### The fold step (R110) -/

/-- Over a complete table the fold step is the one with `T`. -/
theorem foldStep_of_table {s : State} (h : ∀ i, tableRead i s = tableFn i) (acc : Word) (b : Byte) :
    foldStep s acc b = foldStepT acc b :=
  congrArg ((acc >>> 8) ^^^ ·) (h _)

/-- The mask keeps the lowest byte. -/
theorem and_lowByte (acc : Word) : acc &&& 0xFF#32 = (acc.extractLsb' 0 8).setWidth 32 := by
  have hmask : ∀ k < 32, (0xFF#32).getLsbD k = decide (k < 8) := by decide
  apply BitVec.eq_of_getLsbD_eq
  intro k hk
  rw [BitVec.getLsbD_and, hmask k hk]
  simp [hk, Bool.and_comm]

/-- Settles O23: the formula is the model's, and a valid table holds `T` (`Inv.tableCorrect`). -/
theorem foldStepFormula : Obligations.FoldStepFormula := by
  unfold Obligations.FoldStepFormula
  refine ⟨fun s acc b => rfl, fun acc b => ?_, fun s acc b hi hv => foldStep_of_table (hi.tableCorrect hv) acc b⟩
  rw [and_lowByte, BitVec.setWidth_xor]

/-! ### The reference hash (R111) -/

/-- Folding is a left fold. -/
theorem foldBytes_eq_foldl (bs : List Byte) : ∀ a : Word, foldBytes a bs = bs.foldl foldStepT a := by
  induction bs with
  | nil => exact fun _ => rfl
  | cons b bs ih => exact fun a => ih (foldStepT a b)

theorem foldBytes_append (a : Word) (bs cs : List Byte) : foldBytes a (bs ++ cs) = foldBytes (foldBytes a bs) cs := by
  simp only [foldBytes_eq_foldl, List.foldl_append]

/-- Over a complete table FOLDW folds the bytes of its word as R111 does. -/
theorem foldWord_of_table {s : State} (h : ∀ i, tableRead i s = tableFn i) (acc w : Word) :
    foldWord s acc w = foldBytes acc (wordBytes w) := by
  simp only [foldWord, foldStep_of_table h]
  rfl

/-- Settles O24: from all ones the index is `0xFF ^ b`, and the complement of the shifted ACC is the constant. -/
theorem oneByteClosedForm : Obligations.OneByteClosedForm := by
  unfold Obligations.OneByteClosedForm
  have hhash (b : Byte) : crcHash [b] = ~~~((0xFFFFFFFF#32 >>> 8) ^^^ tableFn (0xFF#8 ^^^ b)) := rfl
  have hclosed (b : Byte) : crcHash [b] = tableFn (0xFF#8 ^^^ b) ^^^ 0xFF000000#32 := by
    rw [hhash, BitVec.not_xor_left, BitVec.xor_comm]
    rfl
  exact ⟨fun b => ⟨hhash b, hclosed b⟩, by decide, by decide, by decide⟩

/-- ACC after the bytes "1234" (R115). -/
theorem foldBytes_1234 : foldBytes crcInit [0x31#8, 0x32#8, 0x33#8, 0x34#8] = 0x641C1F5C#32 := by decide

/-- Settles O25: "123456789" is folded in two parts. -/
theorem referenceValues : Obligations.ReferenceValues := by
  unfold Obligations.ReferenceValues
  have hrest : foldBytes 0x641C1F5C#32 [0x35#8, 0x36#8, 0x37#8, 0x38#8, 0x39#8] = 0x340BC6D9#32 := by decide
  have hall := foldBytes_append crcInit [0x31#8, 0x32#8, 0x33#8, 0x34#8] [0x35#8, 0x36#8, 0x37#8, 0x38#8, 0x39#8]
  rw [foldBytes_1234, hrest] at hall
  exact ⟨congrArg (~~~ ·) hall, by decide⟩

end Sys2Proof.Machine
end

section
/-! PROOF. The sessions of 41_hasher.md R117: the host's accesses keep the control state, each item folds its bytes, so a
session computes the reference hash of the bytes it feeds. -/

namespace Sys2Proof.Machine

/-! ### Accesses that submit no command -/

/-- `t` is `s` after the accesses `qs`: the same control state, DATA as they leave it, the same turns still to come. -/
structure AfterQuiet (qs : List Quiet) (s t : State) : Prop extends SameControl s t where
  data : t.data = dataAfter s.data qs
  schedule : t.schedule = s.schedule

theorem SameControl.refl (s : State) : SameControl s s :=
  sameControl_setSchedule s.schedule s

theorem AfterQuiet.nil (s : State) : AfterQuiet [] s s :=
  ⟨.refl s, rfl, rfl⟩

theorem SameControl.trans {s t u : State} (h : SameControl s t) (h' : SameControl t u) : SameControl s u :=
  ⟨h'.base.trans h.base, h'.tableValid.trans h.tableValid, h'.active.trans h.active,
    h'.resultValid.trans h.resultValid, h'.result.trans h.result, h'.acc.trans h.acc, h'.table.trans h.table,
    h'.pending.trans h.pending, h'.bidx.trans h.bidx, h'.bcnt.trans h.bcnt⟩

theorem dataAfter_cons (d : Word) (q : Quiet) (qs : List Quiet) :
    dataAfter d (q :: qs) = dataAfter (dataAfter d [q]) qs := by
  cases q with
  | read k => rfl
  | wrData v => rfl
  | wrTidx v => rfl
  | wrStatus v => rfl

theorem AfterQuiet.cons {q : Quiet} {qs : List Quiet} {s t u : State} (h : AfterQuiet [q] s t)
    (h' : AfterQuiet qs t u) : AfterQuiet (q :: qs) s u :=
  ⟨h.toSameControl.trans h'.toSameControl, by rw [h'.data, h.data, ← dataAfter_cons], h'.schedule.trans h.schedule⟩

theorem runTurn_quiet (q : Quiet) {base : Nat} {s : State} (hb : s.base = base) :
    ∃ t, runTurn (q.turn base) s = .next t ∧ AfterQuiet [q] s t := by
  cases q with
  | read k =>
    exact ⟨_, runTurn_read hb (by omega) (by omega), sameControl_logRead _ s, rfl, rfl⟩
  | wrData v =>
    exact ⟨_, runTurn_write hb (by decide) (by decide) (by decide) v, sameControl_writeReg 0x08 v s, rfl, rfl⟩
  | wrTidx v =>
    exact ⟨_, runTurn_write hb (by decide) (by decide) (by decide) v, sameControl_writeReg 0x10 v s, rfl, rfl⟩
  | wrStatus v =>
    exact ⟨_, runTurn_write hb (by decide) (by decide) (by decide) v, sameControl_writeReg 0x04 v s, rfl, rfl⟩

/-- Any number of such accesses. -/
theorem runTurns_quiet {base : Nat} (qs : List Quiet) :
    ∀ {s : State}, s.base = base → ∃ t, runTurns (qs.map (Quiet.turn base)) s = .next t ∧ AfterQuiet qs s t := by
  induction qs with
  | nil => exact fun {s} _ => ⟨s, rfl, .nil s⟩
  | cons q qs ih =>
    intro s hb
    obtain ⟨t, hfirst, ht⟩ := runTurn_quiet q hb
    obtain ⟨u, hrest, hu⟩ := ih (ht.base.trans hb)
    exact ⟨u, (runTurns_cons _ hfirst).trans hrest, ht.cons hu⟩

/-- A command that is accepted and, after such accesses, completed. -/
theorem runTurns_cmdTurns {i : Instr} {c : Command} {base : Nat} {s u : State} (qs : List Quiet)
    (hi : isCommand i = true) (hb : s.base = base) (he : exec i s = .next u) (hp : u.pending = some c)
    (hub : u.base = base) :
    ∃ v, runTurns (cmdTurns base i qs) s = .next (complete c v) ∧ AfterQuiet qs u v := by
  have haccept : runTurn (cmdTurn base (encode i)) s = .next u := (runTurn_encode hi hb).trans he
  obtain ⟨v, hquiet, hv⟩ := runTurns_quiet qs hub
  have hcomplete : runTurn .core v = .next (complete c v) := runTurn_core_pending (hv.pending.trans hp)
  refine ⟨v, ?_, hv⟩
  rw [cmdTurns, runTurns_cons _ haccept, runTurns_append _ hquiet, runTurns_cons _ hcomplete, runTurns_nil]

/-! ### The state inside a session -/

/-- `t` is a state of an open session that began in `s`: DATA is `d`, ACC is `a`, `p` is pending, and TABLE holds `T`, valid
unless a BUILD is pending. -/
structure InSession (s : State) (p : Option Command) (d a : Word) (t : State) : Prop where
  base : t.base = s.base
  schedule : t.schedule = s.schedule
  table : ∀ i, tableRead i t = tableFn i
  tableValid : p ≠ some .build → t.tableValid = true
  active : t.active = true
  pending : t.pending = p
  data : t.data = d
  acc : t.acc = a

section
variable {s t : State} {d a : Word}

theorem InSession.afterQuiet {p : Option Command} {qs : List Quiet} {u : State} (h : InSession s p d a t)
    (hq : AfterQuiet qs t u) : InSession s p (dataAfter d qs) a u where
  base := hq.base.trans h.base
  schedule := hq.schedule.trans h.schedule
  table i := (tableRead_congr hq.table i).trans (h.table i)
  tableValid hp := hq.tableValid.trans (h.tableValid hp)
  active := hq.active.trans h.active
  pending := hq.pending.trans h.pending
  data := by rw [hq.data, h.data]
  acc := hq.acc.trans h.acc

theorem InSession.latch (h : InSession s none d a t) (c : Command) : InSession s (some c) d a (latch c t) :=
  ⟨h.base, h.schedule, h.table, fun _ => h.tableValid nofun, h.active, rfl, h.data, h.acc⟩

theorem InSession.acceptBuild (h : InSession s none d a t) : InSession s (some .build) d a (acceptBuild t) :=
  ⟨h.base, h.schedule, h.table, fun hp => absurd rfl hp, h.active, rfl, h.data, h.acc⟩

theorem InSession.completeFold8 {b : Byte} (h : InSession s (some (.fold8 b)) d a t) :
    InSession s none d (foldBytes a [b]) (complete (.fold8 b) t) :=
  ⟨h.base, h.schedule, h.table, fun _ => h.tableValid nofun, h.active, rfl, h.data,
    (foldStep_of_table h.table t.acc b).trans (by rw [h.acc]; rfl)⟩

theorem InSession.completeFoldw {w : Word} (h : InSession s (some (.foldw w)) d a t) :
    InSession s none d (foldBytes a (wordBytes w)) (complete (.foldw w) t) :=
  ⟨h.base, h.schedule, h.table, fun _ => h.tableValid nofun, h.active, rfl, h.data,
    (foldWord_of_table h.table t.acc w).trans (by rw [h.acc])⟩

theorem InSession.completeBuild (h : InSession s (some .build) d a t) : InSession s none d a (complete .build t) :=
  ⟨h.base, h.schedule, fun i => tableRead_completeBuild i t, fun _ => rfl, h.active, rfl, h.data, h.acc⟩

/-! ### The items of a session -/

/-- The bytes one item feeds when DATA is `d`. -/
def SessionItem.bytes (d : Word) : SessionItem → List Byte
  | .fold8 b _ => [b]
  | .foldw _ => wordBytes d
  | .build _ => []
  | .nop => []
  | .quiet _ => []

/-- The accesses of one item that submit no command. -/
def SessionItem.accesses : SessionItem → List Quiet
  | .fold8 _ qs => qs
  | .foldw qs => qs
  | .build qs => qs
  | .nop => []
  | .quiet q => [q]

theorem fedBytes_cons (d : Word) (it : SessionItem) (items : List SessionItem) :
    fedBytes d (it :: items) = it.bytes d ++ fedBytes (dataAfter d it.accesses) items := by
  cases it with
  | fold8 b qs => rfl
  | foldw qs => rfl
  | build qs => rfl
  | nop => rfl
  | quiet q => rfl

/-- An item folds its bytes into ACC and leaves the session open, with nothing pending. -/
theorem runTurns_item (it : SessionItem) (h : InSession s none d a t) :
    ∃ u, runTurns (it.turns s.base) t = .next u ∧
      InSession s none (dataAfter d it.accesses) (foldBytes a (it.bytes d)) u := by
  have hv : t.tableValid = true := h.tableValid nofun
  cases it with
  | fold8 b qs =>
    have haccept := exec_fold8_idle h.pending hv h.active b
    obtain ⟨v, hrun, hq⟩ := runTurns_cmdTurns qs rfl h.base haccept rfl h.base
    exact ⟨_, hrun, ((h.latch _).afterQuiet hq).completeFold8⟩
  | foldw qs =>
    have haccept := exec_foldw_idle h.pending hv h.active
    obtain ⟨v, hrun, hq⟩ := runTurns_cmdTurns qs rfl h.base haccept rfl h.base
    exact ⟨_, hrun, h.data ▸ ((h.latch _).afterQuiet hq).completeFoldw⟩
  | build qs =>
    obtain ⟨v, hrun, hq⟩ := runTurns_cmdTurns qs rfl h.base (exec_build_idle h.pending) rfl h.base
    exact ⟨_, hrun, (h.acceptBuild.afterQuiet hq).completeBuild⟩
  | nop =>
    have hrun : runTurn (cmdTurn s.base (encode .nop)) t = .next t :=
      (runTurn_encode rfl h.base).trans (exec_nop_idle h.pending)
    exact ⟨t, runTurns_cons [] hrun, h⟩
  | quiet q =>
    obtain ⟨u, hrun, hq⟩ := runTurn_quiet q h.base
    exact ⟨u, runTurns_cons [] hrun, h.afterQuiet hq⟩

/-- The items fold the bytes they feed, by induction on the session. -/
theorem runTurns_sessionBody (items : List SessionItem) : ∀ {t : State} {d a : Word}, InSession s none d a t →
    ∃ u d', runTurns (sessionBody s.base items) t = .next u ∧
      InSession s none d' (foldBytes a (fedBytes d items)) u := by
  induction items with
  | nil => exact fun {t d a} h => ⟨t, d, rfl, h⟩
  | cons it items ih =>
    intro t d a h
    obtain ⟨u, hfirst, hu⟩ := runTurns_item it h
    obtain ⟨v, d', hrest, hv⟩ := ih hu
    rw [← foldBytes_append, ← fedBytes_cons] at hv
    exact ⟨v, d', (runTurns_append _ hfirst).trans hrest, hv⟩

end

/-! ### Whole sessions -/

/-- INIT opens the session: ACC is `CRC_INIT`. -/
theorem runTurns_sessionInit {s : State} (qs : List Quiet) (hi : Inv s) (hv : s.tableValid = true)
    (hp : s.pending = none) :
    ∃ t, runTurns (cmdTurns s.base .init qs) s = .next t ∧ InSession s none (dataAfter s.data qs) crcInit t := by
  obtain ⟨v, hrun, hq⟩ := runTurns_cmdTurns qs rfl rfl (exec_init_idle hp hv) rfl rfl
  have htable (i : Byte) : tableRead i v = tableFn i := (tableRead_congr hq.table i).trans (hi.tableCorrect hv i)
  exact ⟨_, hrun, hq.base, hq.schedule, htable, fun _ => hq.tableValid.trans hv, rfl, rfl, hq.data, rfl⟩

/-- Settles O29: INIT opens the session, the items fold their bytes (`runTurns_sessionBody`), and FINAL, accepted in that
state, completes with the complement of ACC. -/
theorem sessionComputesTheHash : Obligations.SessionComputesTheHash := by
  unfold Obligations.SessionComputesTheHash
  intro s atInit items atFinal hi hv hp
  obtain ⟨t, hinit, ht⟩ := runTurns_sessionInit atInit hi hv hp
  obtain ⟨u, d, hbody, hu⟩ := runTurns_sessionBody items ht
  have haccept := exec_final_idle hu.pending hu.active
  obtain ⟨v, hfinal, hq⟩ := runTurns_cmdTurns atFinal rfl hu.base haccept rfl hu.base
  have hend := (hu.latch .final).afterQuiet hq
  refine ⟨complete .final v, ?_, congrArg (~~~ ·) hend.acc, rfl, rfl, rfl, hend.tableValid nofun, hend.schedule⟩
  rw [sessionTurns, runTurns_append _ hinit, runTurns_append _ hbody, hfinal]

/-- Settles O30: each RESULT is the hash of the bytes fed. -/
theorem sessionsOfTheSameBytesAgree : Obligations.SessionsOfTheSameBytesAgree := by
  unfold Obligations.SessionsOfTheSameBytesAgree
  intro s s' t t' p p' q q' items items' hi hi' hv hv' hp hp' hbytes hrun hrun'
  obtain ⟨u, hu, hres, -⟩ := sessionComputesTheHash s p items q hi hv hp
  obtain ⟨u', hu', hres', -⟩ := sessionComputesTheHash s' p' items' q' hi' hv' hp'
  cases hrun.symm.trans hu
  cases hrun'.symm.trans hu'
  rw [hres, hres', hbytes]

end Sys2Proof.Machine
end

section
/-! PROOF. INIT, FOLD8, FOLDW and FINAL at acceptance and at completion (41_hasher.md R113 to R116), FOLDW as four FOLD8
(R120), and the empty session (R118). -/

namespace Sys2Proof.Machine

/-- Another word with the opcode of a command without an operand raises ERR_BADCMD (30_encoding.md R75). -/
theorem step_wrongBareWord {s : State} {w : Word} {op : BitVec 4} (hp : s.pending = none)
    (hop : w.extractLsb' 12 4 = op) (h3 : op ≠ 3#4) (hne : w ≠ formatC 0#16 op 0#4 0#8) :
    step (onTurn (cmdTurn s.base w) s) = .next { s with errBadcmd := true } := by
  have hop : opOf w = op := hop
  subst hop
  exact step_bare_badcmd hp h3 hne

/-! ### INIT -/

/-- INIT and its completion. -/
theorem runTurns_init {s : State} (hp : s.pending = none) (hv : s.tableValid = true) (rest : List Turn) :
    runTurns (cmdTurn s.base 0x00002000#32 :: .core :: rest) s = runTurns rest (completeInit s) :=
  runTurns_command (i := .init) rfl rfl (exec_init_idle hp hv) rfl rest

/-- A second INIT finds what the first one left. -/
theorem completeInit_completeInit (s : State) : completeInit (completeInit s) = completeInit s := rfl

/-- Settles O13: acceptance is `exec_init_idle`, the completion `completeInit`, and each error is a check of R130. -/
theorem initOpensASession : Obligations.InitOpensASession := by
  unfold Obligations.InitOpensASession
  refine ⟨fun s hp hv => ?_, fun s hp => step_core_pending hp, fun s hp hv => ?_, fun s hp => exec_busy .init hp,
    fun s hp hv => submit_noTable hp false hv, fun s w hp hop hne => step_wrongBareWord hp hop (by decide) hne,
    ⟨completeInit (completeBuild (acceptBuild State.reset)), ?_, by decide, rfl⟩⟩
  · have haccept := exec_init_idle hp hv
    exact ⟨haccept, (step_encode (i := .init) rfl s).trans haccept⟩
  · have hsecond := runTurns_init (s := completeInit s) rfl hv []
    rw [runTurns_init hp hv, runTurns_init hp hv]
    exact hsecond
  · exact (runTurns_append _ (runTurns_build (s := State.reset) rfl)).trans (runTurns_init rfl rfl [])

/-! ### FOLD8 -/

/-- `s` with another ACC. -/
def withAcc (a : Word) (s : State) : State := { s with acc := a }

/-- With nothing pending, FOLD8 from acceptance to completion changes ACC only. -/
theorem completeFold8_latch {s : State} (hp : s.pending = none) (c : Command) (b : Byte) :
    completeFold8 b (latch c s) = withAcc (foldStep s s.acc b) s := by
  rw [withAcc, hp]
  rfl

theorem completeFoldw_latch {s : State} (hp : s.pending = none) (c : Command) (w : Word) :
    completeFoldw w (latch c s) = withAcc (foldWord s s.acc w) s := by
  rw [withAcc, hp]
  rfl

/-- FOLD8 for each of these bytes, each accepted and completed in turn. -/
def fold8Turns (base : Nat) (bs : List Byte) : List Turn := bs.flatMap fun b => cmdTurns base (.fold8 b) []

/-- In an open session they fold the bytes and change nothing else. -/
theorem runTurns_fold8Turns (bs : List Byte) : ∀ {s : State}, s.pending = none → s.tableValid = true →
    s.active = true → runTurns (fold8Turns s.base bs) s = .next (withAcc (bs.foldl (foldStep s) s.acc) s) := by
  induction bs with
  | nil => exact fun _ _ _ => rfl
  | cons b bs ih =>
    intro s hp hv ha
    have hfirst := runTurns_command rfl rfl (exec_fold8_idle hp hv ha b) rfl (fold8Turns s.base bs)
    have hrest := ih (s := withAcc (foldStep s s.acc b) s) hp hv ha
    rw [complete, completeFold8_latch hp] at hfirst
    exact hfirst.trans hrest

/-- A word with a nonzero reserved field is not valid (30_encoding.md R75). -/
theorem validWord_of_nonzeroReserved {w : Word} (h : w.extractLsb' 16 16 ≠ 0#16 ∨ w.extractLsb' 8 4 ≠ 0#4) :
    validWord w = false := by
  unfold validWord
  rcases h with h | h
  · simp [beq_false_of_ne h]
  · simp [beq_false_of_ne h]

/-- The fold with ACC's own lowest byte reads entry 0, which is 0. -/
theorem foldStepT_lowByte (acc : Word) : foldStepT acc (acc.extractLsb' 0 8) = acc >>> 8 := by
  have hindex : foldIndex acc (acc.extractLsb' 0 8) = 0#8 := BitVec.xor_self
  rw [foldStepT, hindex, tableFn_zero, BitVec.xor_zero]

/-- Settles O14: acceptance is `exec_fold8_idle`, the completion one fold step, and each error is a check of R130. -/
theorem fold8FoldsOneByte : Obligations.Fold8FoldsOneByte := by
  unfold Obligations.Fold8FoldsOneByte
  simp only [← encode_fold8]
  refine ⟨fun b s hp hv ha => ?_, fun b s hp => step_core_pending hp,
    fun b s hp hv ha => runTurns_fold8Turns [b, b] hp hv ha, fun b s hp => exec_busy (.fold8 b) hp,
    fun b s hp hv => submit_noTable hp true hv, fun b s hp hv ha => submit_noSession hp (fun _ => hv) ha,
    fun s w hp _ hfield => step_invalid hp (validWord_of_nonzeroReserved hfield), fun s htable => ?_⟩
  · have haccept := exec_fold8_idle hp hv ha b
    exact ⟨haccept, (step_encode rfl s).trans haccept⟩
  · simp only [foldStep_of_table htable]
    exact ⟨foldStepT_lowByte, by decide, by decide, by decide⟩

/-! ### FOLDW -/

/-- FOLDW and its completion, with nothing pending before it. -/
theorem runTurns_foldw {s : State} (hp : s.pending = none) (hv : s.tableValid = true) (ha : s.active = true) :
    runTurns [cmdTurn s.base 0x00004000#32, .core] s = .next (withAcc (foldWord s s.acc s.data) s) := by
  rw [← completeFoldw_latch hp (.foldw s.data)]
  exact runTurns_command (i := .foldw) rfl rfl (exec_foldw_idle hp hv ha) rfl []

/-- A write to DATA changes DATA only (42_control.md R135). -/
theorem step_dataWrite (s : State) (v : Word) :
    step (onTurn (writeTurn s.base 0x08 v) s) = .next (writeData v s) := by
  rw [step_onTurn, runTurn_write rfl (by decide) (by decide) (by decide), writeReg_data]

/-- Over a complete table a pending FOLDW folds its word's bytes as R111 does. -/
theorem step_foldw_of_table {s : State} {a w : Word} (htable : ∀ i, tableRead i s = tableFn i)
    (hp : s.pending = some (.foldw w)) (ha : s.acc = a) :
    ∃ t, step (onTurn .core s) = .next t ∧ t.acc = foldBytes a (wordBytes w) :=
  ⟨_, step_core_pending hp, by rw [← ha]; exact foldWord_of_table htable s.acc w⟩

/-- Settles O15: acceptance is `exec_foldw_idle`, the completion four fold steps, and each error is a check of R130. -/
theorem foldwFoldsFourBytes : Obligations.FoldwFoldsFourBytes := by
  unfold Obligations.FoldwFoldsFourBytes
  refine ⟨fun s hp hv ha => ?_, fun w s hp => step_core_pending hp, fun w v s _ => step_dataWrite s v,
    fun s hp => exec_busy .foldw hp, fun s hp hv => submit_noTable hp true hv,
    fun s hp hv ha => submit_noSession hp (fun _ => hv) ha,
    fun s w hp hop hne => step_wrongBareWord hp hop (by decide) hne, fun s htable hp ha => ?_, fun s htable => ?_,
    fun s htable hp ha => ?_⟩
  · have haccept := exec_foldw_idle hp hv ha
    exact ⟨haccept, (step_encode (i := .foldw) rfl s).trans haccept⟩
  · have hbytes : wordBytes 0x34333231#32 = [0x31#8, 0x32#8, 0x33#8, 0x34#8] := by decide
    have hstep := step_foldw_of_table htable hp ha
    rw [hbytes] at hstep
    exact foldBytes_1234 ▸ hstep
  · simp only [foldStep_of_table htable]
    decide
  · have hzero : foldBytes 0xFFFFFFFF#32 (wordBytes 0#32) = 0xDEBB20E3#32 := by decide
    exact hzero ▸ step_foldw_of_table htable hp ha

/-- Settles O27: both runs fold the bytes of DATA and change ACC only. -/
theorem foldwEqualsFourFold8 : Obligations.FoldwEqualsFourFold8 := by
  unfold Obligations.FoldwEqualsFourFold8
  intro s hp hv ha
  refine ⟨_, runTurns_foldw hp hv ha, ?_⟩
  rw [foldWord_eq_foldl]
  exact runTurns_fold8Turns (wordBytes s.data) hp hv ha

/-! ### FINAL -/

/-- FINAL and its completion. -/
theorem runTurns_final {s : State} (hp : s.pending = none) (ha : s.active = true) (rest : List Turn) :
    runTurns (cmdTurn s.base 0x00005000#32 :: .core :: rest) s = runTurns rest (completeFinal s) :=
  runTurns_command (i := .final) rfl rfl (exec_final_idle hp ha) rfl rest

theorem exec_final_noSession {s : State} (hp : s.pending = none) (ha : s.active = false) :
    exec .final s = .next { s with errSeq := true } :=
  submit_noSession hp nofun ha

/-- FINAL's completion clears BUSY and ACTIVE and sets RESULT_VALID in STATUS. -/
theorem statusWord_completeFinal (s : State) :
    statusWord (completeFinal s) = statusWord s &&& ~~~0x00000005#32 ||| 0x00000008#32 := by
  have hmask : ∀ k < 32, (~~~0x00000005#32).getLsbD k = decide (k ≠ 0 ∧ k ≠ 2) := by decide
  have hset : ∀ k < 32, (0x00000008#32).getLsbD k = decide (k = 3) := by decide
  apply BitVec.eq_of_getLsbD_eq
  intro k hk
  rw [BitVec.getLsbD_or, BitVec.getLsbD_and, hmask k hk, hset k hk, statusWord_getLsbD, statusWord_getLsbD]
  rcases k with _ | _ | _ | _ | k <;> simp [statusBits]

/-- Settles O16: acceptance is `exec_final_idle`, the completion `completeFinal`, and each error is a check of R130. -/
theorem finalProducesTheChecksum : Obligations.FinalProducesTheChecksum := by
  unfold Obligations.FinalProducesTheChecksum
  refine ⟨fun s hp ha => ?_, fun s hp => step_core_pending hp, fun s hp ha => ?_, fun s hp => exec_busy .final hp,
    fun s hp ha => exec_final_noSession hp ha, fun s w hp hop hne => step_wrongBareWord hp hop (by decide) hne,
    fun s hp hacc hst => ⟨_, step_core_pending hp, ?_, ?_⟩, fun s hp hacc => ⟨_, step_core_pending hp, ?_⟩⟩
  · have haccept := exec_final_idle hp ha
    exact ⟨haccept, (step_encode (i := .final) rfl s).trans haccept⟩
  · have hsecond : runTurn (cmdTurn s.base 0x00005000#32) (completeFinal s) =
        .next { completeFinal s with errSeq := true } :=
      (runTurn_encode (i := .final) rfl rfl).trans (exec_final_noSession rfl rfl)
    exact ⟨_, (runTurns_final hp ha _).trans (runTurns_cons [] hsecond), rfl, rfl, rfl, rfl⟩
  · exact (completeFinal_result s).trans (by rw [hacc]; decide)
  · exact (statusWord_completeFinal s).trans (by rw [hst]; decide)
  · exact (completeFinal_result s).trans (by rw [hacc]; decide)

/-- Settles O28: INIT leaves ACC all ones, whose complement is 0. -/
theorem emptyInputGivesZero : Obligations.EmptyInputGivesZero := by
  unfold Obligations.EmptyInputGivesZero
  intro s hp hv
  have hfinal := runTurns_final (s := completeInit s) rfl rfl []
  have hempty : ~~~crcInit = 0#32 := by decide
  exact ⟨completeFinal (completeInit s), (runTurns_init hp hv _).trans hfinal, hempty, rfl⟩

end Sys2Proof.Machine
end

section
/-! PROOF. The control unit: the check order of a CMD write, NOP and the reserved opcodes, and the register accesses at any
time, also while a command is pending (42_control.md R130 to R138). -/

namespace Sys2Proof.Machine

/-! ### CMD writes (R130, R132, R133) -/

/-- Settles O7: `cmdOutcome` is the state that `step_cmdWrite` says every CMD write leads to. -/
theorem cmdWriteFollowsTheCheckOrder : Obligations.CmdWriteFollowsTheCheckOrder := by
  unfold Obligations.CmdWriteFollowsTheCheckOrder
  intro s w
  cases hcmd : cmdError w s with
  | none => rw [step_cmdWrite, cmdOutcome_of_none hcmd]
  | some e => rw [step_cmdWrite, cmdOutcome_of_some hcmd]

/-- While a command is pending every CMD write raises ERR_BUSY, the first check of R130. -/
theorem step_cmdWrite_busy {s : State} (hp : s.pending ≠ none) (w : Word) :
    step (onTurn (cmdTurn s.base w) s) = .next { s with errBusy := true } := by
  have hcmd : cmdError w s = some .errBusy := by simp [cmdError, hp]
  rw [step_cmdWrite, cmdOutcome_of_some hcmd]
  rfl

/-- Settles O11: acceptance is `exec_nop_idle`, the core finds nothing to complete, and each error is a check of R130. -/
theorem nopHasNoEffect : Obligations.NopHasNoEffect := by
  unfold Obligations.NopHasNoEffect
  have hnop {s : State} (hp : s.pending = none) : step (onTurn (cmdTurn s.base 0x00000000#32) s) = .next s :=
    (step_encode (i := .nop) rfl s).trans (exec_nop_idle hp)
  refine ⟨fun s hp => ⟨exec_nop_idle hp, hnop hp, step_core_idle hp⟩, fun s hp => exec_busy .nop hp,
    fun s w hp hop hne => step_wrongBareWord hp hop (by decide) hne, ?_⟩
  have hwrite : runTurn (cmdTurn 0 0x00000000#32) State.reset = .next State.reset :=
    hnop (s := State.reset) rfl
  have hread : runTurn (readTurn 0 0x04) State.reset = .next (logRead (statusWord State.reset) State.reset) :=
    step_statusRead State.reset
  exact (runTurns_cons _ hwrite).trans (runTurns_cons [] hread)

/-- A reserved opcode raises ERR_BADCMD while nothing is pending. -/
theorem exec_reserved_idle {i : Instr} (hi : isCommand i = false) {s : State} (hp : s.pending = none) :
    exec i s = .next { s with errBadcmd := true } := by
  have hreject : rejectWord s = .next { s with errBadcmd := true } := by rw [rejectWord_eq, if_pos hp, raise_eq_badcmd]
  cases i with
  | reservedOp67 _ _ _ _ => exact hreject
  | reservedOp8F _ _ _ _ => exact hreject
  | _ => cases hi

/-- A word with a reserved opcode fails `valid`, whatever its other bits (30_encoding.md R75). -/
theorem validWord_of_reservedOp {w : Word} (hop : 6 ≤ (w.extractLsb' 12 4).toNat) : validWord w = false := by
  have hnot : ¬ (w.extractLsb' 12 4).toNat ≤ 5 := by omega
  simp only [validWord, decide_eq_false hnot, Bool.and_false, Bool.false_and]

/-- Settles O17: a reserved word fails `valid`, so it meets the first or the second check of R130. -/
theorem reservedOpcodesAreRejected : Obligations.ReservedOpcodesAreRejected := by
  unfold Obligations.ReservedOpcodesAreRejected
  have hreset : runTurn (cmdTurn 0 0x00006000#32) State.reset = .next { State.reset with errBadcmd := true } :=
    step_invalid (s := State.reset) (w := 0x00006000#32) rfl (by decide)
  refine ⟨fun h op m b s hp => ⟨exec_reserved_idle rfl hp, exec_reserved_idle rfl hp⟩,
    fun h op m b s hp => ⟨exec_busy _ hp, exec_busy _ hp⟩, fun s w hop => ?_,
    ⟨_, runTurns_cons [] hreset, by decide⟩⟩
  split
  · next hp => exact step_invalid hp (validWord_of_reservedOp hop)
  · next hp => exact step_cmdWrite_busy hp w

/-! ### STATUS writes (R134) -/

theorem statusBits_clearErrors (v : Word) (s : State) :
    statusBits (clearErrors v s) = [decide (s.pending ≠ none), s.tableValid, s.active, s.resultValid, false, false, false,
      false, s.errBusy && !v.getLsbD 8, s.errBadcmd && !v.getLsbD 9, s.errNotable && !v.getLsbD 10,
      s.errSeq && !v.getLsbD 11] := rfl

/-- In STATUS, a clearing write takes away the error bits it names and no other bit. -/
theorem statusWord_clearErrors (v : Word) (s : State) :
    statusWord (clearErrors v s) = statusWord s &&& ~~~(v &&& 0x00000F00#32) := by
  have hmask : ∀ k < 32, (0x00000F00#32).getLsbD k = decide (8 ≤ k ∧ k < 12) := by decide
  apply BitVec.eq_of_getLsbD_eq
  intro k hk
  rw [BitVec.getLsbD_and, BitVec.getLsbD_not, BitVec.getLsbD_and, hmask k hk, statusWord_getLsbD, statusWord_getLsbD,
    statusBits_clearErrors]
  rcases k with _ | _ | _ | _ | _ | _ | _ | _ | _ | _ | _ | _ | k <;> simp [statusBits]

/-- Settles O33: the write is `clearErrors`, in the fields by definition and in the word by `statusWord_clearErrors`. -/
theorem statusWriteClearsNamedErrors : Obligations.StatusWriteClearsNamedErrors := by
  unfold Obligations.StatusWriteClearsNamedErrors
  refine ⟨fun s v => ⟨_, step_statusWrite s v, statusWord_clearErrors v s, rfl⟩,
    fun s hst => ⟨_, step_statusWrite s _, ?_⟩⟩
  rw [statusWord_clearErrors, hst]
  decide

/-- The status word of R134's example is that of a state. -/
example : statusWord { State.reset with tableValid := true, errBusy := true, errBadcmd := true, errSeq := true } =
    0x00000B02#32 := by decide

/-! ### The other accesses (R135 to R137) -/

/-- A read at a word offset returns the register's value. -/
theorem step_read (s : State) {off : Nat} (ho : off < 0x40) (h4 : off % 4 = 0) :
    step (onTurn (readTurn s.base off) s) = .next (logRead (readReg off s) s) :=
  runTurn_read rfl ho h4

/-- A write to a register other than CMD, and then a read. -/
theorem runTurns_write_read (s : State) (v : Word) (off off' : Nat) (hw : off < 0x40 ∧ off % 4 = 0 ∧ off ≠ 0)
    (hr : off' < 0x40 ∧ off' % 4 = 0) :
    runTurns [writeTurn s.base off v, readTurn s.base off'] s =
      .next (logRead (readReg off' (writeReg off v s)) (writeReg off v s)) := by
  obtain ⟨hin, halign, hne⟩ := hw
  obtain ⟨hin', halign'⟩ := hr
  have hbase : (writeReg off v s).base = s.base := (sameControl_writeReg off v s).base
  rw [runTurns_cons _ (runTurn_write rfl hin halign hne v), runTurns_cons _ (runTurn_read hbase hin' halign'),
    runTurns_nil]

/-- A write to TIDX changes TIDX only (R136). -/
theorem step_tidxWrite (s : State) (v : Word) : step (onTurn (writeTurn s.base 0x10 v) s) = .next (writeTidx v s) := by
  rw [step_onTurn, runTurn_write rfl (by decide) (by decide) (by decide), writeReg_tidx]

/-- A write to RESULT, TDATA, POLY or a reserved offset is ignored (R137). -/
theorem step_ignoredWrite (s : State) (v : Word) {k : Fin 16} (hk : k.val = 3 ∨ k.val = 5 ∨ k.val = 6 ∨ 7 ≤ k.val) :
    step (onTurn (writeTurn s.base (4 * k.val) v) s) = .next s := by
  rw [step_onTurn, runTurn_write rfl (by omega) (by omega) (by omega)]
  rcases writeReg_cases (4 * k.val) v s with ⟨hoff, -⟩ | ⟨hoff, -⟩ | ⟨hoff, -⟩ | ⟨-, -, -, hkeep⟩
  · omega
  · omega
  · omega
  · rw [hkeep]

/-- Settles O34: DATA is a register the host writes and reads back. -/
theorem dataWriteStoresTheValue : Obligations.DataWriteStoresTheValue := by
  unfold Obligations.DataWriteStoresTheValue
  intro s v
  exact ⟨step_dataWrite s v, runTurns_write_read s v 0x08 0x08 (by decide) (by decide)⟩

/-- Settles O35: TIDX holds the low byte; a TIDX read returns it zero-extended and a TDATA read indexes TABLE with it. -/
theorem tidxWriteStoresTheIndex : Obligations.TidxWriteStoresTheIndex := by
  unfold Obligations.TidxWriteStoresTheIndex
  intro s v
  refine ⟨step_tidxWrite s v, ?_, ?_⟩
  · rw [and_lowByte]
    exact runTurns_write_read s v 0x10 0x10 (by decide) (by decide)
  · exact runTurns_write_read s v 0x10 0x14 (by decide) (by decide)

/-- Settles O36: `step_ignoredWrite`, and CMD holds nothing to read. -/
theorem ignoredAccesses : Obligations.IgnoredAccesses := by
  unfold Obligations.IgnoredAccesses
  exact ⟨fun s v k hk => step_ignoredWrite s v hk, fun s => step_read s (off := 0x00) (by decide) (by decide)⟩

/-! ### Accesses while busy (R138) -/

/-- Settles O37: only a CMD write looks at PENDING (`step_cmdWrite_busy`); every other access is as at any time. -/
theorem accessesWhileBusy : Obligations.AccessesWhileBusy := by
  unfold Obligations.AccessesWhileBusy
  intro s hp
  refine ⟨fun k => step_read s (by omega) (by omega), ?_, readReg_result s,
    fun v => ⟨_, step_statusWrite s v, statusWord_clearErrors v s, clearErrors_pending v s⟩, step_dataWrite s,
    step_tidxWrite s, fun v k hk => step_ignoredWrite s v hk, step_cmdWrite_busy hp⟩
  rw [readReg_status]
  exact (statusWord_busy_iff s).mpr hp

end Sys2Proof.Machine
end

section
/-! PROOF. What raising an interface error changes: one bit of STATUS, and nothing else (60_exceptions.md R151, R152). -/

namespace Sys2Proof.Machine

/-- The code of an error as a one-bit word. -/
theorem errorCode_mask_getLsbD (e : InterfaceError) (k : Nat) :
    (1#32 <<< errorCode e).getLsbD k = decide (errorCode e = k) := by
  have hcode : errorCode e < 32 := by cases e <;> decide
  rw [← BitVec.twoPow_eq, BitVec.getLsbD_twoPow, decide_eq_true hcode, Bool.true_and]

/-- The code is the error's place in the list of STATUS bits. -/
theorem statusBits_raise (e : InterfaceError) (s : State) :
    statusBits (raise e s) = (statusBits s).set (errorCode e) true := by
  rw [raise_eq_raised]
  cases e <;> rfl

/-- In STATUS, raising an error sets the bit of its code and no other. -/
theorem statusWord_raise (e : InterfaceError) (s : State) :
    statusWord (raise e s) = statusWord s ||| 1#32 <<< errorCode e := by
  have hlen : errorCode e < (statusBits s).length := by cases e <;> simp [errorCode, statusBits]
  apply BitVec.eq_of_getLsbD_eq
  intro k _
  rw [BitVec.getLsbD_or, errorCode_mask_getLsbD, statusWord_getLsbD, statusWord_getLsbD, statusBits_raise,
    List.getD_eq_getElem?_getD, List.getD_eq_getElem?_getD]
  by_cases hk : errorCode e = k
  · rw [← hk, List.getElem?_set_self hlen]
    simp
  · rw [List.getElem?_set_ne hk]
    simp [hk]

/-- Settles O8: a rejected word leads to `raise` of its error, which is `statusWord_raise` in STATUS; the other fields are
the frame of `raise`, one `simp` lemma per field of State (`raise_pending` and its like). -/
theorem rejectedWordSetsOnlyItsErrorBit : Obligations.RejectedWordSetsOnlyItsErrorBit := by
  unfold Obligations.RejectedWordSetsOnlyItsErrorBit
  intro s w e hcmd
  have hstep : step (onTurn (cmdTurn s.base w) s) = .next (raise e s) := by
    rw [step_cmdWrite, cmdOutcome_of_some hcmd, raise_eq_raised]
  exact ⟨raise e s, hstep, statusWord_raise e s, by simp⟩

end Sys2Proof.Machine
end

section
/-! PROOF. Reset and the hazards a host can see: TDATA without a table, the reset values, an abandoned command, RESULT
before FINAL completes, and DATA rewritten after FOLDW (70_reset_and_hazards.md R170, R171, R175, R176, R178). -/

namespace Sys2Proof.Machine

/-! ### TDATA (R176) -/

theorem tdata_of_noTable {s : State} (hv : s.tableValid = false) : tdata s = 0#32 := by
  simp [tdata, hv]

theorem tdata_of_inv {s : State} (hi : Inv s) (hv : s.tableValid = true) : tdata s = tableFn s.tidx := by
  rw [tdata, if_pos hv, hi.tableCorrect hv]

/-- Reset leaves no valid table to read. -/
theorem tdata_resetBlock (s : State) : tdata (resetBlock s) = 0#32 :=
  tdata_of_noTable (resetBlock_tableValid s)

/-- A TDATA read returns `tdata` and changes nothing of the block. -/
theorem step_tdataRead {s : State} {v : Word} (h : tdata s = v) :
    step (onTurn (readTurn s.base 0x14) s) = .next (logRead v s) := by
  rw [step_read s (by decide) (by decide), readReg_tdata, h]

/-- Settles O40: TABLE_VALID decides what `tdata` is, and a pending BUILD or a reset leaves it 0. -/
theorem tdataReadsZeroWithoutTable : Obligations.TdataReadsZeroWithoutTable := by
  unfold Obligations.TdataReadsZeroWithoutTable
  exact ⟨fun s hv => step_tdataRead (tdata_of_noTable hv), fun s hi hv => step_tdataRead (tdata_of_inv hi hv),
    fun s hi hp => step_tdataRead (tdata_of_noTable (hi.buildHidesTable hp)),
    fun s => ⟨_, step_reset s, tdata_resetBlock s⟩⟩

/-! ### Reset (R170, R171) -/

/-- STATUS is 0 after reset: nothing is pending and every flag is cleared. -/
theorem statusWord_resetBlock (s : State) : statusWord (resetBlock s) = 0x00000000#32 := by
  simp [statusWord, busy]

/-- Settles O55: a reset turn is `resetBlock`, whose fields are the reset values; TDATA reads 0 by `tdata_resetBlock`. -/
theorem resetTurnSetsTheResetValues : Obligations.ResetTurnSetsTheResetValues := by
  unfold Obligations.ResetTurnSetsTheResetValues
  intro s
  exact ⟨_, step_reset s, statusWord_resetBlock s, resetBlock_data s, resetBlock_result s,
    by rw [readReg_tidx, resetBlock_tidx]; decide, resetBlock_pending s, resetBlock_acc s, readReg_poly _,
    tdata_resetBlock s⟩

/-- Core turns with nothing pending do nothing, however many (log entry 3). -/
theorem runTurns_core_idle {s : State} (hp : s.pending = none) (n : Nat) :
    runTurns (List.replicate n .core) s = .next s := by
  induction n with
  | zero => rfl
  | succ n ih =>
    have hidle : runTurn .core s = .next s := step_core_idle hp
    rw [List.replicate_succ, runTurns_cons _ hidle, ih]

/-- Settles O56: reset empties PENDING, so every core turn after it is idle (`runTurns_core_idle`). -/
theorem resetAbandonsThePendingCommand : Obligations.ResetAbandonsThePendingCommand := by
  unfold Obligations.ResetAbandonsThePendingCommand
  intro s n
  exact ⟨_, step_reset s, resetBlock_pending s, resetBlock_active s, resetBlock_tableValid s,
    tdata_resetBlock s, resetBlock_result s, runTurns_core_idle (resetBlock_pending s) n⟩

/-! ### RESULT (R175) -/

/-- While a command is pending no host access changes the control state: a CMD write is dropped (42_control.md R130). -/
theorem sameControl_hostAccess {a : Access} {s t : State} (hp : s.pending ≠ none) (h : hostAccess a s = .next t) :
    SameControl s t := by
  rcases hostAccess_next h with rfl | ⟨v, rfl⟩ | ⟨w, -, hw⟩ | ⟨off, v, -, -, rfl⟩
  · exact .refl _
  · exact sameControl_logRead v s
  · rcases submitWord_next hw with ⟨e, rfl⟩ | rfl | ⟨hidle, -⟩
    · exact sameControl_raise e s
    · exact .refl _
    · exact absurd hidle hp
  · exact sameControl_writeReg off v s

/-- Nor do any number of them. -/
theorem sameControl_runTurns_host (accesses : List Access) :
    ∀ {s t : State}, s.pending ≠ none → runTurns (accesses.map Turn.host) s = .next t → SameControl s t := by
  induction accesses with
  | nil =>
    intro s t _ h
    cases h
    exact .refl s
  | cons a accesses ih =>
    intro s t hp h
    obtain ⟨u, hfirst, hrest⟩ := runTurns_cons_cases h
    have hu : SameControl s u := sameControl_hostAccess hp hfirst
    exact hu.trans (ih (hu.pending ▸ hp) hrest)

theorem runTurn_resultRead {base : Nat} {s : State} (hb : s.base = base) :
    runTurn (readTurn base 0x0C) s = .next (logRead s.result s) :=
  runTurn_read hb (by decide) (by decide)

/-- Settles O52: until the core's turn the host's accesses keep RESULT and ACC (`sameControl_runTurns_host`), and the
completion of FINAL complements ACC into RESULT. -/
theorem resultIsOldUntilFinalCompletes : Obligations.ResultIsOldUntilFinalCompletes := by
  unfold Obligations.ResultIsOldUntilFinalCompletes
  intro s hi hp ha
  have haccept : runTurn (cmdTurn s.base 0x00005000#32) s = .next (latch .final s) :=
    (runTurn_encode (i := .final) rfl rfl).trans (exec_final_idle hp ha)
  refine ⟨⟨_, (runTurns_cons _ haccept).trans (runTurns_cons [] (runTurn_resultRead rfl)), rfl⟩, hi.resultZero,
    ⟨_, (runTurns_final hp ha _).trans (runTurns_cons [] (runTurn_resultRead rfl)), rfl, rfl⟩, fun accesses t hrun => ?_⟩
  rw [runTurns_cons _ haccept] at hrun
  have ht : SameControl (latch .final s) t := sameControl_runTurns_host accesses nofun hrun
  have hcomplete : runTurn .core t = .next (completeFinal t) := runTurn_core_pending ht.pending
  have hnew : (completeFinal t).result = ~~~s.acc := (completeFinal_result t).trans (by rw [ht.acc, latch_acc])
  exact ⟨⟨_, runTurn_resultRead ht.base, congrArg (· :: t.readLog) ht.result⟩,
    ⟨_, (runTurns_cons _ hcomplete).trans (runTurns_cons [] (runTurn_resultRead ht.base)),
      congrArg (· :: t.readLog) hnew, rfl⟩⟩

/-! ### DATA (R178) -/

/-- Settles O53: FOLDW latched DATA at acceptance, so its completion folds the old word and leaves the new one in DATA. -/
theorem dataMayBeRewrittenAfterFoldw : Obligations.DataMayBeRewrittenAfterFoldw := by
  unfold Obligations.DataMayBeRewrittenAfterFoldw
  intro s v hp hv ha
  have haccept : runTurn (cmdTurn s.base 0x00004000#32) s = .next (latch (.foldw s.data) s) :=
    (runTurn_encode (i := .foldw) rfl rfl).trans (exec_foldw_idle hp hv ha)
  have hwrite : runTurn (writeTurn s.base 0x08 v) (latch (.foldw s.data) s) =
      .next (writeData v (latch (.foldw s.data) s)) := step_dataWrite (latch (.foldw s.data) s) v
  have hcomplete := runTurn_core_pending (s := writeData v (latch (.foldw s.data) s)) rfl
  rw [runTurns_cons _ haccept, runTurns_cons _ hwrite, runTurns_cons _ hcomplete, runTurns_nil]
  exact congrArg Host.Outcome.next (completeFoldw_latch (s := writeData v s) hp (.foldw s.data) s.data)

end Sys2Proof.Machine
end

section
/-! PROOF. `decode` and `encode` undo each other, and decoding follows the opcode table (30_encoding.md R70 to R76). -/

namespace Sys2Proof.Machine

/-! ### Decoding an encoded instruction -/

/-- The two reserved rows share no opcode. -/
theorem not_isOp8F_of_isOp67 {op : BitVec 4} (h : isOp67 op = true) : ¬ isOp8F op = true := by
  revert op
  decide

theorem decode_encode {i : Instr} (hwf : WellFormed i = true) : decode (encode i) = .ok i := by
  cases i with
  | reservedOp67 rsvh op rsvm imm8 =>
    have h6 : isOp67 op = true := hwf
    rw [encode, decode_formatC, if_neg (not_isOp8F_of_isOp67 h6), if_pos h6]
  | reservedOp8F rsvh op rsvm imm8 =>
    have h8 : isOp8F op = true := hwf
    rw [encode, decode_formatC, if_pos h8]
  | _ => exact decode_encode_of_isCommand rfl

/-- Settles O1: a command's word by `decode_encode_of_isCommand`, a reserved word field by field. -/
theorem decodeOfEncodeIsIdentity : Obligations.DecodeOfEncodeIsIdentity :=
  fun _ => decode_encode

/-! ### Encoding a decoded word -/

theorem wellFormed_of_isCommand {i : Instr} (hi : isCommand i = true) : WellFormed i = true := by
  cases i with
  | reservedOp67 _ _ _ _ => cases hi
  | reservedOp8F _ _ _ _ => cases hi
  | _ => rfl

/-- What a word decodes to is well-formed: a reserved row is answered only for the opcodes of that row. -/
theorem wellFormed_of_decode {w : Word} {i : Instr} (h : decode w = .ok i) : WellFormed i = true := by
  obtain ⟨rsvh, op, rsvm, b, rfl⟩ := exists_fields w
  rw [decode_formatC] at h
  split_ifs at h with h8 h6 hh hm
  · cases h
    exact h8
  · cases h
    exact h6
  · obtain ⟨-, hcmd, -⟩ := decodeCommand_ok h8 h6 h
    exact wellFormed_of_isCommand hcmd

/-- Settles O2: `wellFormed_of_decode`, and `decode_ok` for the word. -/
theorem encodeOfDecodeIsIdentity : Obligations.EncodeOfDecodeIsIdentity :=
  fun _ _ h => ⟨wellFormed_of_decode h, (decode_ok h).1⟩

/-! ### The opcode table -/

theorem row_mem_opcodeTable (i : Instr) : i.row ∈ opcodeTable := by
  cases i with
  | nop => exact List.mem_of_getElem? (i := 0) rfl
  | build => exact List.mem_of_getElem? (i := 1) rfl
  | init => exact List.mem_of_getElem? (i := 2) rfl
  | fold8 b => exact List.mem_of_getElem? (i := 3) rfl
  | foldw => exact List.mem_of_getElem? (i := 4) rfl
  | final => exact List.mem_of_getElem? (i := 5) rfl
  | reservedOp67 _ _ _ _ => exact List.mem_of_getElem? (i := 6) rfl
  | reservedOp8F _ _ _ _ => exact List.mem_of_getElem? (i := 7) rfl

/-- A well-formed instruction's word fits its row (R74). -/
theorem row_fits_encode {i : Instr} (hwf : WellFormed i = true) : i.row.fits (encode i) = true := by
  cases i with
  | nop => exact Laws.OpcodeRow.nop hwf
  | build => exact Laws.OpcodeRow.build hwf
  | init => exact Laws.OpcodeRow.init hwf
  | fold8 b => exact Laws.OpcodeRow.fold8 b hwf
  | foldw => exact Laws.OpcodeRow.foldw hwf
  | final => exact Laws.OpcodeRow.final hwf
  | reservedOp67 rsvh op rsvm imm8 => exact Laws.OpcodeRow.reservedOp67 rsvh op rsvm imm8 hwf
  | reservedOp8F rsvh op rsvm imm8 => exact Laws.OpcodeRow.reservedOp8F rsvh op rsvm imm8 hwf

/-- The row RESERVED_OP_6_7 tests the top three bits of the opcode. -/
theorem exists_reservedOp67_of_fits {w : Word} (h : (Instr.reservedOp67 0 6 0 0).row.fits w = true) :
    ∃ rsvh op rsvm imm8, isOp67 op = true ∧ formatC rsvh op rsvm imm8 = w := by
  obtain ⟨rsvh, op, rsvm, b, rfl⟩ := exists_fields w
  have hm : (0x0000E000#32 : Word) = formatC 0#16 14#4 0#4 0#8 := by decide
  have hp : (0x00006000#32 : Word) = formatC 0#16 6#4 0#4 0#8 := by decide
  have hop : ∀ op : BitVec 4, op &&& 14#4 = 6#4 → isOp67 op = true := by decide
  simp only [Row.fits, Instr.row, hm, hp, formatC_and, beq_iff_eq, formatC_inj] at h
  obtain ⟨-, hmask, -, -⟩ := h
  exact ⟨rsvh, op, rsvm, b, hop op hmask, rfl⟩

/-- The row RESERVED_OP_8_F tests the top bit of the opcode. -/
theorem exists_reservedOp8F_of_fits {w : Word} (h : (Instr.reservedOp8F 0 8 0 0).row.fits w = true) :
    ∃ rsvh op rsvm imm8, isOp8F op = true ∧ formatC rsvh op rsvm imm8 = w := by
  obtain ⟨rsvh, op, rsvm, b, rfl⟩ := exists_fields w
  have hm : (0x00008000#32 : Word) = formatC 0#16 8#4 0#4 0#8 := by decide
  have hop : ∀ op : BitVec 4, op &&& 8#4 = 8#4 → isOp8F op = true := by decide
  simp only [Row.fits, Instr.row, hm, formatC_and, beq_iff_eq, formatC_inj] at h
  obtain ⟨-, hmask, -, -⟩ := h
  exact ⟨rsvh, op, rsvm, b, hop op hmask, rfl⟩

/-- A row holds only words of well-formed instructions of that row. -/
theorem exists_encode_of_fits {r : Row} {w : Word} (hr : r ∈ opcodeTable) (hfits : r.fits w = true) :
    ∃ i, WellFormed i = true ∧ i.row = r ∧ encode i = w := by
  simp only [opcodeTable, List.mem_cons, List.not_mem_nil, or_false] at hr
  rcases hr with rfl | rfl | rfl | rfl | rfl | rfl | rfl | rfl
  · exact ⟨.nop, rfl, rfl, (eq_of_fits_fullMask hfits).symm⟩
  · exact ⟨.build, rfl, rfl, (eq_of_fits_fullMask hfits).symm⟩
  · exact ⟨.init, rfl, rfl, (eq_of_fits_fullMask hfits).symm⟩
  · obtain ⟨b, hb⟩ := exists_fold8_of_fits hfits
    exact ⟨.fold8 b, rfl, rfl, hb⟩
  · exact ⟨.foldw, rfl, rfl, (eq_of_fits_fullMask hfits).symm⟩
  · exact ⟨.final, rfl, rfl, (eq_of_fits_fullMask hfits).symm⟩
  · obtain ⟨rsvh, op, rsvm, b, hop, hw⟩ := exists_reservedOp67_of_fits hfits
    exact ⟨.reservedOp67 rsvh op rsvm b, hop, rfl, hw⟩
  · obtain ⟨rsvh, op, rsvm, b, hop, hw⟩ := exists_reservedOp8F_of_fits hfits
    exact ⟨.reservedOp8F rsvh op rsvm b, hop, rfl, hw⟩

/-- A word that fits a row decodes to an instruction of that row, so it fits no other. -/
theorem decode_of_fits {r : Row} {w : Word} (hr : r ∈ opcodeTable) (hfits : r.fits w = true) :
    ∃ i, decode w = .ok i ∧ i.row = r := by
  obtain ⟨i, hwf, hrow, rfl⟩ := exists_encode_of_fits hr hfits
  exact ⟨i, decode_encode hwf, hrow⟩

/-- Settles O3: the first clause is `row_fits_encode`, the other two are `decode_of_fits`. -/
theorem decodeFollowsTheOpcodeTable : Obligations.DecodeFollowsTheOpcodeTable := by
  unfold Obligations.DecodeFollowsTheOpcodeTable
  refine ⟨fun w i h => ⟨row_mem_opcodeTable i, ?_⟩, fun w e h r hr => ?_, fun w r hr r' hr' hfits hfits' => ?_⟩
  · have hfits := row_fits_encode (wellFormed_of_decode h)
    rwa [(decode_ok h).1] at hfits
  · refine Bool.eq_false_iff.mpr fun hfits => ?_
    obtain ⟨i, hok, -⟩ := decode_of_fits hr hfits
    cases h.symm.trans hok
  · obtain ⟨i, hok, rfl⟩ := decode_of_fits hr hfits
    obtain ⟨i', hok', rfl⟩ := decode_of_fits hr' hfits'
    cases hok.symm.trans hok'
    rfl

/-- Settles O5, by decoding each word. -/
theorem sampleWordsDecode : Obligations.SampleWordsDecode := by
  unfold Obligations.SampleWordsDecode
  decide

end Sys2Proof.Machine
end

section
/-! PROOF. A submitted word, what acceptance leaves unchanged, and accesses that read or that miss the window
(42_control.md R130, R131; 20_memory.md R52, R53; 60_exceptions.md R150). -/

namespace Sys2Proof.Machine

/-! ### A submitted word -/

theorem step_decoded {w : Word} {i : Instr} (h : decode w = .ok i) (s : State) :
    step (onTurn (cmdTurn s.base w) s) = exec i s := by
  rw [step_onTurn, runTurn_cmd rfl, submitWord, h]

theorem step_undecoded {w : Word} {e : DecodeError} (h : decode w = .error e) (s : State) :
    step (onTurn (cmdTurn s.base w) s) = .next (raised (if s.pending = none then .errBadcmd else .errBusy) s) := by
  rw [step_onTurn, runTurn_cmd rfl, submitWord, h]
  exact (rejectWord_eq s).trans (by rw [raise_eq_raised])

theorem tableWord_toNat (w : Word) : tableWord 32 w.toNat = w := by
  rw [tableWord, Nat.mod_eq_of_lt w.isLt, BitVec.ofNat_toNat, BitVec.setWidth_eq]

/-- The host's CMD write of the word is what happens next. -/
theorem withFetchWord_eq (s : State) (w : Word) : s.withFetchWord 32 w.toNat = onTurn (cmdTurn s.base w) s := by
  rw [State.withFetchWord, tableWord_toNat]
  rfl

/-- Settles O6: a CMD write submits its word, and `withFetchWord` is such a write. -/
theorem stepRunsTheSubmittedCommand : Obligations.StepRunsTheSubmittedCommand :=
  ⟨fun s _ _ h => step_decoded h s, fun s _ _ h => step_undecoded h s,
    fun s w _ h => (congrArg step (withFetchWord_eq s w)).trans (step_decoded h s)⟩

/-! ### Acceptance -/

/-- Settles O9: every case of `exec_cases` is a next state. -/
theorem everyCommandAnswersNext : Obligations.EveryCommandAnswersNext := by
  unfold Obligations.EveryCommandAnswersNext
  intro i s
  rcases exec_cases i s with ⟨e, h⟩ | ⟨-, h⟩ | ⟨-, ⟨-, h⟩ | ⟨-, -, h⟩ | ⟨b, -, -, -, h⟩ | ⟨-, -, -, h⟩ | ⟨-, -, h⟩⟩
  all_goals exact ⟨_, h⟩

/-- The four things a command can do at acceptance. -/
theorem exec_next {i : Instr} {s t : State} (h : exec i s = .next t) :
    (∃ e, t = raise e s) ∨ t = s ∨ (s.pending = none ∧ i = .build ∧ t = acceptBuild s) ∨
    (s.pending = none ∧ i ≠ .nop ∧ isCommand i = true ∧ ∃ c, t = latch c s) := by
  rcases exec_cases i s with ⟨e, h'⟩ | ⟨-, h'⟩ |
    ⟨hp, ⟨rfl, h'⟩ | ⟨rfl, -, h'⟩ | ⟨b, rfl, -, -, h'⟩ | ⟨rfl, -, -, h'⟩ | ⟨rfl, -, h'⟩⟩ <;>
    cases h.symm.trans h'
  · exact .inl ⟨e, rfl⟩
  · exact .inr (.inl rfl)
  · exact .inr (.inr (.inl ⟨hp, rfl, rfl⟩))
  all_goals exact .inr (.inr (.inr ⟨hp, nofun, rfl, _, rfl⟩))

/-- Settles O10, for each of the four things of `exec_next`: an error leaves PENDING, and only with PENDING empty is a
command latched, which leaves the error bits. -/
theorem acceptanceFrame : Obligations.AcceptanceFrame := by
  unfold Obligations.AcceptanceFrame
  intro i s t h
  rcases exec_next h with ⟨e, rfl⟩ | rfl | ⟨hp, rfl, rfl⟩ | ⟨hp, hnop, hcmd, c, rfl⟩ <;>
    refine ⟨rfl, rfl, rfl, rfl, fun _ => rfl, rfl, rfl, rfl, rfl, rfl, rfl, rfl, rfl, rfl, ?_⟩
  · exact ⟨fun _ => rfl, fun _ => rfl, fun _ => rfl, fun hne => absurd rfl hne⟩
  · exact ⟨fun _ => rfl, fun _ => rfl, fun _ => rfl, fun hne => absurd rfl hne⟩
  · exact ⟨fun hne => absurd rfl hne, nofun, fun hbusy => absurd hp hbusy, fun _ => ⟨rfl, rfl, rfl, rfl⟩⟩
  · exact ⟨fun _ => rfl, fun hi => absurd hi (by simp [hnop, hcmd]), fun hbusy => absurd hp hbusy,
      fun _ => ⟨rfl, rfl, rfl, rfl⟩⟩

/-! ### Reads, and accesses outside the window -/

/-- The offsets past POLY hold nothing (10_state.md R34). -/
theorem readReg_reserved {off : Nat} (h : 0x1C ≤ off) (s : State) : readReg off s = 0#32 := by
  unfold readReg offStatus offData offResult offTidx offTdata offPoly
  rw [if_neg (by omega), if_neg (by omega), if_neg (by omega), if_neg (by omega), if_neg (by omega), if_neg (by omega)]

/-- Settles O32: a read logs `readReg`, whose value is the register at each of the 16 word offsets. -/
theorem readsReturnRegistersWithoutSideEffect : Obligations.ReadsReturnRegistersWithoutSideEffect := by
  unfold Obligations.ReadsReturnRegistersWithoutSideEffect
  rintro s ⟨k, hk⟩
  refine (step_read s (by dsimp only; omega) (by dsimp only; omega)).trans ?_
  refine congrArg (fun v => Host.Outcome.next (logRead v s)) ?_
  match k with
  | 0 => rfl
  | 1 => exact readReg_status s
  | 2 => exact readReg_data s
  | 3 => exact readReg_result s
  | 4 => exact readReg_tidx s
  | 5 => exact readReg_tdata s
  | 6 => exact readReg_poly s
  | k + 7 => exact readReg_reserved (off := 4 * (k + 7)) (by omega) s

theorem windowOffset_outside {base addr : Nat} (h : addr < base ∨ base + 0x3F < addr) :
    windowOffset base addr = none :=
  if_neg (by unfold windowSize; omega)

/-- An access outside the window does nothing to the block. -/
theorem hostAccess_outside {a : Access} {s : State} (h : windowOffset s.base a.addr = none) :
    hostAccess a s = .next s := by
  rw [hostAccess, h]

/-- Settles O39: such an address has no window offset, whatever the access does there. -/
theorem accessesOutsideTheWindowChangeNothing : Obligations.AccessesOutsideTheWindowChangeNothing :=
  fun _ _ _ _ h => ⟨hostAccess_outside (windowOffset_outside h), hostAccess_outside (windowOffset_outside h)⟩

/-! ### The core's turn -/

/-- Settles O48: `step_core_idle` and `step_core_pending`. -/
theorem coreTurnCompletesThePendingCommand : Obligations.CoreTurnCompletesThePendingCommand :=
  ⟨fun _ => step_core_idle, fun s c hp => ⟨step_core_pending hp, complete_pending c s⟩⟩

end Sys2Proof.Machine
end

section
/-! PROOF. The invariant, and the writers of ACC, DATA, TIDX and TABLE (10_state.md R29, R31, R35, R36, R41). -/

namespace Sys2Proof.Machine

/-! ### The invariant -/

/-- Settles O57: nothing is pending after reset, and no table is valid. -/
theorem resetMeetsTheInvariant : Obligations.ResetMeetsTheInvariant :=
  inv_of_idle rfl nofun nofun (fun _ => rfl) rfl (Nat.zero_le _) (Nat.zero_le _)

/-- Settles O58: `inv_step`. -/
theorem stepKeepsTheInvariant : Obligations.StepKeepsTheInvariant :=
  fun _ _ => inv_step

/-- Settles O54, by computing each value of the reset state. -/
theorem resetStateHasTheSpecValues : Obligations.ResetStateHasTheSpecValues := by
  unfold Obligations.ResetStateHasTheSpecValues
  decide

/-! ### ACC -/

/-- Settles O44: of the five control steps only reset and the completions of INIT, FOLD8 and FOLDW touch ACC. -/
theorem accumulatorIsNeverSeeded : Obligations.AccumulatorIsNeverSeeded := by
  unfold Obligations.AccumulatorIsNeverSeeded
  intro s t hst hne
  cases step_control hst with
  | keeps h => exact absurd h.acc hne
  | completes c hcore hp h =>
    cases c with
    | build => exact absurd h.acc hne
    | init => exact .inl ⟨hcore, hp, h.acc⟩
    | fold8 b => exact .inr (.inl ⟨b, hcore, hp, h.acc⟩)
    | foldw w => exact .inr (.inr (.inl ⟨w, hcore, hp, h.acc.trans (foldWord_eq_foldl s s.acc w)⟩))
    | final => exact absurd h.acc hne
  | resets hr h => exact .inr (.inr (.inr ⟨hr, h.acc⟩))
  | acceptsBuild _ _ h => exact absurd h.acc hne
  | accepts c _ _ _ h => exact absurd h.acc hne

/-! ### DATA and TIDX -/

/-- No completion touches a register the host writes. -/
theorem coreStep_data_tidx (s : State) : (coreStep s).data = s.data ∧ (coreStep s).tidx = s.tidx := by
  cases hp : s.pending with
  | none =>
    rw [coreStep_idle hp]
    exact ⟨rfl, rfl⟩
  | some c =>
    rw [coreStep_pending hp]
    cases c with
    | build => exact ⟨rfl, rfl⟩
    | init => exact ⟨rfl, rfl⟩
    | fold8 b => exact ⟨rfl, rfl⟩
    | foldw w => exact ⟨rfl, rfl⟩
    | final => exact ⟨rfl, rfl⟩

/-- No submitted word touches DATA or TIDX. -/
theorem submitWord_data_tidx {w : Word} {s t : State} (h : submitWord w s = .next t) :
    t.data = s.data ∧ t.tidx = s.tidx := by
  rcases submitWord_next h with ⟨e, rfl⟩ | rfl |
    ⟨-, ⟨-, rfl⟩ | ⟨-, rfl⟩ | ⟨b, -, -, rfl⟩ | ⟨-, -, rfl⟩ | ⟨-, rfl⟩⟩
  all_goals exact ⟨rfl, rfl⟩

/-- Settles O46: of the things a step can do (`step_next`) only reset and a write to the register itself touch it. -/
theorem dataAndTidxChangeOnlyByHostOrReset : Obligations.DataAndTidxChangeOnlyByHostOrReset := by
  unfold Obligations.DataAndTidxChangeOnlyByHostOrReset
  intro s t hst
  rcases step_next hst with ⟨-, ts, rfl⟩ | ⟨hr, ts, rfl⟩ | ⟨-, ts, -, rfl⟩ | ⟨v, ts, rfl⟩ | ⟨w, ts, u, -, rfl, hs⟩ |
    ⟨off, v, ts, -, hw, rfl⟩
  · obtain ⟨hdata, htidx⟩ := coreStep_data_tidx s
    exact ⟨.inl hdata, .inl htidx⟩
  · exact ⟨.inr (.inr ⟨hr, rfl⟩), .inr (.inr ⟨hr, rfl⟩)⟩
  · exact ⟨.inl rfl, .inl rfl⟩
  · exact ⟨.inl rfl, .inl rfl⟩
  · obtain ⟨hdata, htidx⟩ := submitWord_data_tidx hs
    exact ⟨.inl hdata, .inl htidx⟩
  · rcases writeReg_cases off v s with ⟨-, h⟩ | ⟨rfl, h⟩ | ⟨rfl, h⟩ | ⟨-, -, -, h⟩ <;> rw [h]
    · exact ⟨.inl rfl, .inl rfl⟩
    · exact ⟨.inr (.inl ⟨v, hw, rfl⟩), .inl rfl⟩
    · exact ⟨.inl rfl, .inr (.inl ⟨v, hw, rfl⟩)⟩
    · exact ⟨.inl rfl, .inl rfl⟩

/-! ### TABLE and BASE -/

/-- Only BUILD's completion writes TABLE. -/
theorem complete_table {c : Command} (hc : c ≠ .build) (s : State) : (complete c s).table = s.table := by
  cases c with
  | build => exact absurd rfl hc
  | init => rfl
  | fold8 b => rfl
  | foldw w => rfl
  | final => rfl

theorem complete_base (c : Command) (s : State) : (complete c s).base = s.base := by
  cases c with
  | build => rfl
  | init => rfl
  | fold8 b => rfl
  | foldw w => rfl
  | final => rfl

theorem step_base {s t : State} (hst : step s = .next t) : t.base = s.base := by
  cases step_control hst with
  | keeps h => exact h.base
  | completes c _ _ h => exact h.base.trans (complete_base c s)
  | resets _ h => exact h.base
  | acceptsBuild _ _ h => exact h.base
  | accepts _ _ _ _ h => exact h.base

/-- Settles O47: of the five control steps only reset and the completion of BUILD touch TABLE, and none BASE. -/
theorem tableHasOneWriter : Obligations.TableHasOneWriter := by
  unfold Obligations.TableHasOneWriter
  intro s t hst
  refine ⟨?_, step_base hst⟩
  cases step_control hst with
  | keeps h => exact .inl h.table
  | completes c hcore hp h =>
    by_cases hc : c = .build
    · subst hc
      exact .inr (.inl ⟨hcore, hp, tableRead_of_table h.table⟩)
    · exact .inl (h.table.trans (complete_table hc s))
  | resets hr h => exact .inr (.inr ⟨hr, h.tableValid⟩)
  | acceptsBuild _ _ h => exact .inl h.table
  | accepts _ _ _ _ h => exact .inl h.table

end Sys2Proof.Machine
end

section
/-! PROOF. Runs: the race of INIT with a pending BUILD, and the end of every fault-free run (42_control.md R131,
70_reset_and_hazards.md R181, R182, 95_test_vectors.md P2). -/

namespace Sys2Proof.Machine

/-! ### The race of INIT with a pending BUILD -/

/-- Settles O51: before the core's turn the INIT meets the first check of R130, after it the INIT has its table. -/
theorem bothOrdersOfBuildAndInitAreAdmitted : Obligations.BothOrdersOfBuildAndInitAreAdmitted := by
  unfold Obligations.BothOrdersOfBuildAndInitAreAdmitted
  intro s hp
  have hbuild : runTurn (cmdTurn s.base 0x00001000#32) s = .next (acceptBuild s) := step_build hp
  have hearly : runTurn (cmdTurn s.base 0x00002000#32) (acceptBuild s) = .next { acceptBuild s with errBusy := true } :=
    step_cmdWrite_busy (s := acceptBuild s) nofun _
  have hcore : runTurn .core { acceptBuild s with errBusy := true } =
      .next (completeBuild { acceptBuild s with errBusy := true }) := rfl
  have hlate : runTurn (cmdTurn s.base 0x00002000#32) (completeBuild (acceptBuild s)) =
      .next (latch .init (completeBuild (acceptBuild s))) :=
    (runTurn_encode (i := .init) rfl rfl).trans (exec_init_idle rfl rfl)
  have hrejected := (runTurns_cons _ hbuild).trans ((runTurns_cons _ hearly).trans (runTurns_cons [] hcore))
  exact ⟨⟨_, hrejected, rfl, rfl, rfl, rfl⟩,
    ⟨_, (runTurns_append _ (runTurns_build hp)).trans (runTurns_cons [] hlate), rfl, rfl, rfl⟩⟩

/-! ### Going through a fault-free schedule -/

theorem accessReg_cmdWrite {off : Nat} (h : off = offCmd) (addr n : Nat) (w : Word) (s : State) :
    accessReg off (.write addr n w) s = .next (cmdOutcome w s) :=
  (if_pos h).trans (submitWord_eq_cmdOutcome w s)

theorem accessReg_regWrite {off : Nat} (h : off ≠ offCmd) (addr n : Nat) (v : Word) (s : State) :
    accessReg off (.write addr n v) s = .next (writeReg off v s) :=
  if_neg h

/-- Only an unsupported access stops the machine: a submitted word, accepted or not, has a next state. -/
theorem hostAccess_supported {a : Access} {s : State} (h : turnSupported s.base (.host a)) :
    ∃ t, hostAccess a s = .next t := by
  cases hoff : windowOffset s.base a.addr with
  | none => exact ⟨s, hostAccess_outside hoff⟩
  | some off =>
    have hsup : supported off a.width = true := h off hoff
    simp only [hostAccess, hoff, hsup, if_true]
    cases a with
    | read addr n => exact ⟨_, rfl⟩
    | write addr n v =>
      by_cases h0 : off = offCmd
      · exact ⟨_, accessReg_cmdWrite h0 addr n v s⟩
      · exact ⟨_, accessReg_regWrite h0 addr n v s⟩

theorem runTurn_supported {x : Turn} {s : State} (h : turnSupported s.base x) : ∃ t, runTurn x s = .next t := by
  cases x with
  | host a => exact hostAccess_supported h
  | core => exact ⟨_, rfl⟩
  | reset => exact ⟨_, rfl⟩

theorem step_of_schedule_nil {s : State} (h : s.schedule = []) : step s = .next (coreStep s) := by
  rw [step, takeTurn, h]

theorem step_of_schedule_cons {x : Turn} {rest : List Turn} {s : State} (h : s.schedule = x :: rest) :
    step s = runTurn x (setSchedule rest s) := by
  rw [step, takeTurn, h]

theorem coreStep_schedule (s : State) : (coreStep s).schedule = s.schedule :=
  runTurn_schedule (runTurn_core s)

theorem coreStep_pending_eq_none (s : State) : (coreStep s).pending = none := by
  cases hp : s.pending with
  | none => rw [coreStep_idle hp, hp]
  | some c => rw [coreStep_pending hp, complete_pending]

/-- With no turn and nothing pending left the run has ended. -/
theorem ended_of_schedule_nil {s : State} (hs : s.schedule = []) (hp : s.pending = none) : Ended s :=
  ⟨fun a => by simp [hs], hp⟩

/-- By induction on the schedule: each turn goes through and leaves the rest of it; the last step is the core's. -/
theorem run_supported (ts : List Turn) : ∀ {s : State}, s.schedule = ts → (∀ x ∈ ts, turnSupported s.base x) →
    ∃ t, Sys2Proof.core.run (ts.length + 1) s = .next t ∧ Ended t ∧ t.schedule = [] := by
  induction ts with
  | nil =>
    intro s hs _
    have hend : (coreStep s).schedule = [] := (coreStep_schedule s).trans hs
    exact ⟨coreStep s, run_succ_next (step_of_schedule_nil hs) 0,
      ended_of_schedule_nil hend (coreStep_pending_eq_none s), hend⟩
  | cons x rest ih =>
    intro s hs hsup
    obtain ⟨u, hu⟩ := runTurn_supported (s := setSchedule rest s) (hsup x List.mem_cons_self)
    have hstep : step s = .next u := (step_of_schedule_cons hs).trans hu
    have hrest : ∀ y ∈ rest, turnSupported u.base y := fun y hy => by
      rw [step_base hstep]
      exact hsup y (List.mem_cons_of_mem x hy)
    obtain ⟨t, hrun, ht⟩ := ih (runTurn_schedule hu) hrest
    exact ⟨t, (run_succ_next hstep _).trans hrun, ht⟩

/-! ### A run that has ended -/

/-- Turns of the core and the reset source neither end this nor return anything to the host. -/
theorem step_ended {s : State} (h : Ended s) : ∃ t, step s = .next t ∧ Ended t ∧ t.readLog = s.readLog := by
  obtain ⟨hhost, hp⟩ := h
  cases hs : s.schedule with
  | nil =>
    have hidle : step s = .next s := (step_of_schedule_nil hs).trans (by rw [coreStep_idle hp])
    exact ⟨s, hidle, ⟨hhost, hp⟩, rfl⟩
  | cons x rest =>
    rw [step_of_schedule_cons hs]
    have hrest (a : Access) : Turn.host a ∉ rest := fun ha => hhost a (hs ▸ List.mem_cons_of_mem x ha)
    cases x with
    | host a => exact absurd (hs ▸ List.mem_cons_self) (hhost a)
    | core =>
      have hidle : coreStep (setSchedule rest s) = setSchedule rest s := coreStep_idle hp
      exact ⟨setSchedule rest s, by rw [runTurn_core, hidle], ⟨hrest, hp⟩, rfl⟩
    | reset => exact ⟨_, rfl, ⟨hrest, rfl⟩, rfl⟩

/-- Settles O50: `run_supported`, `step_ended`, and the core's idling. -/
theorem pendingCommandsComplete : Obligations.PendingCommandsComplete := by
  unfold Obligations.PendingCommandsComplete
  refine ⟨fun s => run_supported s.schedule rfl, fun s => step_ended, fun s ⟨_, hp⟩ hs => ?_⟩
  rw [step_of_schedule_nil hs, coreStep_idle hp]

end Sys2Proof.Machine
end

section
/-! PROOF. The builder's micro-sequence computes the table (40_table_builder.md R103). -/

namespace Sys2Proof.Machine

/-! ### One entry -/

/-- The inner loop, from any BCNT: the reflections that are left to eight. -/
theorem builderInner_eq (n : Nat) : ∀ {s : State}, s.bcnt.toNat + n = 8 →
    builderInner n s = { s with bacc := reflTimes n s.bacc, bcnt := 8#4 } := by
  induction n with
  | zero =>
    intro s h
    have hcnt : s.bcnt = 8#4 := BitVec.eq_of_toNat_eq h
    rw [← hcnt]
    rfl
  | succ n ih =>
    intro s h
    have hcnt : (builderReflect s).bcnt.toNat + n = 8 := by
      rw [builderReflect_bcnt, BitVec.toNat_add, BitVec.toNat_ofNat]
      omega
    rw [builderInner, if_pos (by omega), ih hcnt]
    rfl

/-- The body of the outer loop writes `T` of the index to TABLE and goes on to the next index. -/
theorem builderEntry_eq (s : State) :
    builderEntry s = { tableWrite (builderIndex s) (tableFn (builderIndex s)) s with
      bidx := s.bidx + 1#9, bcnt := 8#4, bacc := tableFn (builderIndex s) } := by
  rw [builderEntry, builderInner_eq 8 (s := builderStart s) rfl]
  rfl

/-! ### The whole table -/

/-- The outer loop is at index `k`: `T` stands below it, and the working registers are as the last entry left them. -/
structure BuiltTo (k : Nat) (s : State) : Prop where
  bidx : s.bidx.toNat = k
  table : ∀ i : Byte, i.toNat < k → tableRead i s = tableFn i
  bcnt : 0 < k → s.bcnt = 8#4
  bacc : 0 < k → s.bacc = tableFn (BitVec.ofNat 8 (k - 1))

theorem BuiltTo.builderIndex_eq {k : Nat} {s : State} (h : BuiltTo k s) : builderIndex s = BitVec.ofNat 8 k := by
  apply BitVec.eq_of_toNat_eq
  rw [builderIndex, BitVec.toNat_setWidth, h.bidx, BitVec.toNat_ofNat]

theorem BuiltTo.builderEntry {k : Nat} {s : State} (h : BuiltTo k s) (hk : k < 256) :
    BuiltTo (k + 1) (builderEntry s) := by
  have hindex := h.builderIndex_eq
  rw [builderEntry_eq, hindex]
  refine ⟨?_, fun i hi => ?_, fun _ => rfl, fun _ => rfl⟩
  · have hbidx := h.bidx
    show (s.bidx + 1#9).toNat = k + 1
    rw [BitVec.toNat_add, BitVec.toNat_ofNat]
    omega
  · show tableRead i (tableWrite (BitVec.ofNat 8 k) (tableFn (BitVec.ofNat 8 k)) s) = tableFn i
    by_cases heq : BitVec.ofNat 8 k = i
    · rw [heq, tableRead_tableWrite_same]
    · have hlt : i.toNat ≠ k := fun hik => heq (by rw [← hik, BitVec.ofNat_toNat, BitVec.setWidth_eq])
      rw [tableRead_tableWrite_other heq, h.table i (by omega)]

/-- The outer loop, by induction on the entries left. -/
theorem BuiltTo.builderOuter (n : Nat) : ∀ {k : Nat} {s : State}, BuiltTo k s → k + n = 256 →
    BuiltTo 256 (builderOuter n s) := by
  induction n with
  | zero =>
    intro k s h hk
    exact hk ▸ h
  | succ n ih =>
    intro k s h hk
    have hidx : s.bidx.toNat < 256 := by rw [h.bidx]; omega
    rw [Machine.builderOuter, if_pos hidx]
    exact ih (h.builderEntry (by omega)) (by omega)

theorem builtTo_builderRun (s : State) : BuiltTo 256 (builderRun s) := by
  have hstart : BuiltTo 0 { s with bidx := 0#9 } := ⟨rfl, nofun, nofun, nofun⟩
  unfold builderRun
  exact hstart.builderOuter 256 rfl

theorem tableRead_builderRun (i : Byte) (s : State) : tableRead i (builderRun s) = tableFn i :=
  (builtTo_builderRun s).table i i.isLt

/-- The micro-sequence leaves the complete table and its last entry's registers, and changes nothing else. -/
theorem builderRun_eq (s : State) :
    builderRun s = { s with table := crcTable, bidx := 256#9, bcnt := 8#4, bacc := tableFn 255#8 } := by
  have h := builtTo_builderRun s
  have hbidx : (builderRun s).bidx = 256#9 := BitVec.eq_of_toNat_eq h.bidx
  have hbcnt : (builderRun s).bcnt = 8#4 := h.bcnt (by decide)
  have hbacc : (builderRun s).bacc = tableFn 255#8 := h.bacc (by decide)
  have htable : crcTable = (builderRun s).table :=
    completeBuild_table_eq (t := s) fun i => tableRead_builderRun i s
  rw [← hbidx, ← hbcnt, ← hbacc, htable]
  exact builderRun_frame s

/-- The end of BUILD draws the working registers anew, so the loop and the atomic completion end alike (log entry 7). -/
theorem finishBuild_builderRun (s : State) : finishBuild (builderRun s) = completeBuild s := by
  rw [builderRun_eq]
  rfl

/-- Settles O19: `builderRun_eq`, and the end of BUILD after it (`finishBuild_builderRun`). -/
theorem microSequenceComputesTheTable : Obligations.MicroSequenceComputesTheTable := by
  unfold Obligations.MicroSequenceComputesTheTable
  intro s
  refine ⟨⟨crcTable, builderRun_eq s⟩, fun i => tableRead_builderRun i s, fun hp => ?_⟩
  rw [step_core_pending hp, finishBuild_builderRun]
  rfl

end Sys2Proof.Machine
end

section
/-! PROOF. What the spec leaves unspecified or hidden cannot be observed: each operation keeps `SameVisible`, so two runs
from states that differ only so go in step (10_state.md R35, R36, R38; 93_implementation_defined.md I2, I3). -/

namespace Sys2Proof.Machine

section
variable {s s' : State} (h : SameVisible s s')
include h

/-! ### What the host can read -/

theorem SameVisible.statusWord : statusWord s = statusWord s' := by
  simp only [Machine.statusWord, busy, h.errSeq, h.errNotable, h.errBadcmd, h.errBusy, h.resultValid, h.active,
    h.tableValid, h.pending]

/-- TDATA shows TABLE only while it is valid. -/
theorem SameVisible.tdata : tdata s = tdata s' := by
  cases hv : s.tableValid with
  | false => rw [tdata_of_noTable hv, tdata_of_noTable (h.tableValid ▸ hv)]
  | true =>
    rw [Machine.tdata, Machine.tdata, ← h.tableValid, if_pos hv, if_pos hv, h.tidx, tableRead_congr (h.table hv)]

theorem SameVisible.readReg (off : Nat) : readReg off s = readReg off s' := by
  simp only [Machine.readReg, h.statusWord, h.data, h.result, h.tidx, h.tdata]

/-! ### The operations of the host -/

theorem SameVisible.setSchedule (ts : List Turn) : SameVisible (setSchedule ts s) (setSchedule ts s') :=
  { h with schedule := rfl }

theorem SameVisible.logRead {v v' : Word} (hv : v = v') : SameVisible (logRead v s) (logRead v' s') :=
  { h with readLog := by rw [logRead_readLog, logRead_readLog, hv, h.readLog] }

theorem SameVisible.raised (e : InterfaceError) : SameVisible (raised e s) (raised e s') := by
  cases e with
  | errBusy => exact { h with errBusy := rfl }
  | errBadcmd => exact { h with errBadcmd := rfl }
  | errNotable => exact { h with errNotable := rfl }
  | errSeq => exact { h with errSeq := rfl }

theorem SameVisible.latch (c : Command) : SameVisible (latch c s) (latch c s') :=
  { h with pending := rfl }

theorem SameVisible.acceptBuild : SameVisible (acceptBuild s) (acceptBuild s') :=
  { h with pending := rfl, tableValid := rfl, table := nofun }

theorem SameVisible.clearErrors (v : Word) : SameVisible (clearErrors v s) (clearErrors v s') :=
  { h with
    errBusy := congrArg (· && !v.getLsbD 8) h.errBusy
    errBadcmd := congrArg (· && !v.getLsbD 9) h.errBadcmd
    errNotable := congrArg (· && !v.getLsbD 10) h.errNotable
    errSeq := congrArg (· && !v.getLsbD 11) h.errSeq }

theorem SameVisible.writeReg (off : Nat) (v : Word) : SameVisible (writeReg off v s) (writeReg off v s') := by
  unfold Machine.writeReg
  split_ifs
  · exact h.clearErrors v
  · exact { h with data := rfl }
  · exact { h with tidx := rfl }
  · exact h

/-- The check order looks at visible fields only. -/
theorem SameVisible.cmdError (w : Word) : cmdError w s = cmdError w s' := by
  simp only [Machine.cmdError, h.pending, h.tableValid, h.active]

theorem SameVisible.acceptEffect (w : Word) : SameVisible (acceptEffect w s) (acceptEffect w s') := by
  unfold Machine.acceptEffect
  dsimp only
  split_ifs
  · exact h.acceptBuild
  · exact h.latch .init
  · exact h.latch (.fold8 _)
  · exact { h with pending := congrArg (fun d => some (Command.foldw d)) h.data }
  · exact h.latch .final
  · exact h

theorem SameVisible.cmdOutcome (w : Word) : SameVisible (cmdOutcome w s) (cmdOutcome w s') := by
  have herr := h.cmdError w
  cases hcmd : Machine.cmdError w s' with
  | some e =>
    rw [cmdOutcome_of_some (herr.trans hcmd), cmdOutcome_of_some hcmd]
    exact h.raised e
  | none =>
    rw [cmdOutcome_of_none (herr.trans hcmd), cmdOutcome_of_none hcmd]
    exact h.acceptEffect w

theorem SameVisible.accessReg {off : Nat} {a : Access} {t : State} (ht : accessReg off a s = .next t) :
    ∃ t', accessReg off a s' = .next t' ∧ SameVisible t t' := by
  cases a with
  | read addr n =>
    cases ht
    exact ⟨_, rfl, h.logRead (h.readReg off)⟩
  | write addr n v =>
    by_cases h0 : off = offCmd
    · cases (accessReg_cmdWrite h0 addr n v s).symm.trans ht
      exact ⟨_, accessReg_cmdWrite h0 addr n v s', h.cmdOutcome v⟩
    · cases (accessReg_regWrite h0 addr n v s).symm.trans ht
      exact ⟨_, accessReg_regWrite h0 addr n v s', h.writeReg off v⟩

theorem SameVisible.hostAccess {a : Access} {t : State} (ht : hostAccess a s = .next t) :
    ∃ t', hostAccess a s' = .next t' ∧ SameVisible t t' := by
  unfold Machine.hostAccess at ht ⊢
  rw [← h.base]
  split at ht
  · cases ht
    exact ⟨s', rfl, h⟩
  · split_ifs at ht ⊢
    exact h.accessReg ht

/-! ### The completions and reset -/

theorem SameVisible.foldStep (hv : s.tableValid = true) (acc : Word) (b : Byte) :
    foldStep s acc b = foldStep s' acc b := by
  rw [Machine.foldStep, Machine.foldStep, tableRead_congr (h.table hv)]

theorem SameVisible.foldWord (hv : s.tableValid = true) (acc w : Word) : foldWord s acc w = foldWord s' acc w := by
  simp only [Machine.foldWord, h.foldStep hv]

/-- A completion reads TABLE and ACC only where the invariant makes them visible: a fold was accepted with a table and a
session, FINAL with a session. -/
theorem SameVisible.complete {c : Command} (hi : Inv s) (hp : s.pending = some c) :
    SameVisible (complete c s) (complete c s') := by
  cases c with
  | build => exact { h with tableValid := rfl, pending := rfl, table := fun _ => rfl }
  | init => exact { h with active := rfl, pending := rfl, acc := fun _ => rfl }
  | fold8 b =>
    have hv : s.tableValid = true := hi.tableCommands (.inr (.inl ⟨b, hp⟩))
    have hacc : s.acc = s'.acc := h.acc (hi.sessionCommands (.inl ⟨b, hp⟩))
    exact { h with pending := rfl, acc := fun _ => (h.foldStep hv s.acc b).trans (by rw [hacc]; rfl) }
  | foldw w =>
    have hv : s.tableValid = true := hi.tableCommands (.inr (.inr ⟨w, hp⟩))
    have hacc : s.acc = s'.acc := h.acc (hi.sessionCommands (.inr (.inl ⟨w, hp⟩)))
    exact { h with pending := rfl, acc := fun _ => (h.foldWord hv s.acc w).trans (by rw [hacc]; rfl) }
  | final =>
    have hacc : s.acc = s'.acc := h.acc (hi.sessionCommands (.inr (.inr hp)))
    exact { h with
      result := congrArg (~~~ ·) hacc, resultValid := rfl, active := rfl, pending := rfl, acc := nofun }

theorem SameVisible.coreStep (hi : Inv s) : SameVisible (coreStep s) (coreStep s') := by
  cases hp : s.pending with
  | none =>
    rw [coreStep_idle hp, coreStep_idle (h.pending ▸ hp)]
    exact h
  | some c =>
    rw [coreStep_pending hp, coreStep_pending (h.pending ▸ hp)]
    exact h.complete hi hp

/-- Reset gives every visible item its reset value, and makes TABLE and ACC invisible. -/
theorem SameVisible.resetBlock : SameVisible (resetBlock s) (resetBlock s') where
  base := h.base
  tableValid := rfl
  active := rfl
  resultValid := rfl
  errBusy := rfl
  errBadcmd := rfl
  errNotable := rfl
  errSeq := rfl
  data := rfl
  result := rfl
  tidx := rfl
  pending := rfl
  schedule := h.schedule
  readLog := h.readLog
  table := nofun
  acc := nofun

/-! ### Steps -/

theorem SameVisible.runTurn {x : Turn} {t : State} (hi : Inv s) (ht : runTurn x s = .next t) :
    ∃ t', runTurn x s' = .next t' ∧ SameVisible t t' := by
  cases x with
  | host a => exact h.hostAccess ht
  | core =>
    cases ht
    exact ⟨_, rfl, h.coreStep hi⟩
  | reset =>
    cases ht
    exact ⟨_, rfl, h.resetBlock⟩

theorem SameVisible.step {t : State} (hi : Inv s) (ht : step s = .next t) :
    ∃ t', step s' = .next t' ∧ SameVisible t t' := by
  cases hs : s.schedule with
  | nil =>
    rw [step_of_schedule_nil hs] at ht
    cases ht
    exact ⟨_, step_of_schedule_nil (h.schedule ▸ hs), h.coreStep hi⟩
  | cons x rest =>
    rw [step_of_schedule_cons hs] at ht
    rw [step_of_schedule_cons (h.schedule ▸ hs)]
    exact (h.setSchedule rest).runTurn (inv_of_sameControl hi (sameControl_setSchedule rest s)) ht

end

/-- Settles O60, by induction on the run: `SameVisible.step` matches each step, and `inv_step` keeps the invariant. -/
theorem unspecifiedStateIsUnobservable : Obligations.UnspecifiedStateIsUnobservable := by
  unfold Obligations.UnspecifiedStateIsUnobservable
  intro n
  induction n with
  | zero =>
    intro s s' t _ _ h hrun
    cases hrun
    exact ⟨s', rfl, h⟩
  | succ n ih =>
    intro s s' t hi hi' h hrun
    obtain ⟨u, hu, hrest⟩ := run_succ_cases hrun
    obtain ⟨u', hu', hvis⟩ := h.step hi hu
    obtain ⟨t', hrun', ht⟩ := ih u u' t (inv_step hi hu) (inv_step hi' hu') hvis hrest
    exact ⟨t', (run_succ_next hu' n).trans hrun', ht⟩

end Sys2Proof.Machine
end
